-- ==== Sys2Proof/Word.lean ====
section
/-! DEFINITION. The word types of the part: bytes of frames, and the numbers that name masters, ports, claims and tags. -/

namespace Sys2Proof

/-- One byte of a master link or head link frame (chapter 12). -/
abbrev Byte := BitVec 8

/-- A two-byte field, little-endian on the links (chapter 12). -/
abbrev Half := BitVec 16

/-- A master, named by the number of its link: 0, 1, 2 (00_scope.md, Conventions). -/
abbrev Master := Fin 3

/-- A head port: 0 to 3 (00_scope.md, Conventions). -/
abbrev PortId := Fin 4

/-- A claim by its name's value in 12.2: 0 PLAN, 1 to 4 PORT 0 to PORT 3. -/
abbrev ClaimId := Fin 5

/-- The identifier 0..63 that a live pass holds (R42). -/
abbrev Tag := Fin 64

end Sys2Proof
end

