-- ==== Sys2Proof/Syntax.lean ====
section
/-! DEFINITION. The commands of the part: one constructor of `Instr` for each row of spec/opcode_table.json,
with the operands that the row's rules need and the state does not hold. Request operands are the parameter
fields of 12.3, each with the width of its layout; the absence of the write fields is the read form. -/

namespace Sys2Proof

/-- A one-place change of the line pair (A, B) along the order (0,0), (1,0), (1,1), (0,1) of 1.2. -/
inductive Move where
  /-- One place forward in the order. -/
  | ahead
  /-- One place back in the order. -/
  | back
  deriving DecidableEq, Repr

/-- Bytes 0..11 of the blade entry image, as PUT_BLADE carries them (12.4). -/
structure BladeImage where
  number : Byte
  start : BitVec 24
  close : BitVec 24
  mark : BitVec 24
  options : Byte
  tracking : Byte
  deriving DecidableEq, Repr

/-- The eight parameters of the write form of SET_ANGLE_CONFIG (12.3). -/
structure AngleParams where
  cpr : BitVec 32
  zeroOffset : BitVec 24
  idxTol : Byte
  lockRevs : Byte
  slipLimit : Byte
  revHyst : Byte
  stallTime : Half
  sense : Byte
  deriving DecidableEq, Repr

/-- The two parameters of the write form of SET_ADAPT (12.3). -/
structure AdaptParams where
  gain : Byte
  freeze : Byte
  deriving DecidableEq, Repr

/-- The seven parameters of the write form of SET_PORT_CONFIG (12.3). -/
structure PortParams where
  divisor : Half
  fraction : Byte
  stopBits : Byte
  rto : Byte
  errLimit : Byte
  trigWidth : Byte
  wakeTime : Half
  deriving DecidableEq, Repr

/-- The parameters of START_TEST after the port: the mode and the four mode bytes (12.3). -/
structure TestParams where
  mode : Byte
  b0 : Byte
  b1 : Byte
  b2 : Byte
  b3 : Byte
  deriving DecidableEq, Repr

/-- The parameters of SUBMIT_PASS (12.3). -/
structure SubmitParams where
  port : Byte
  blade : Byte
  direction : Byte
  step : Half
  limit : Byte
  len : Byte
  options : Byte
  deriving DecidableEq, Repr

/-- The commands of the part, one constructor per row of spec/opcode_table.json. -/
inductive Instr where
  -- events of the part's lines, timers and transmitters
  /-- POWER_ON_RESET: the levels of ENC_A, ENC_B, INTLK and SEL0..2 (true: asserted) as RESET_N is released. -/
  | powerOnReset (encA encB intlk sel0 sel1 sel2 : Bool)
  /-- DECODED_COUNT: the move of the line pair and the level of ENC_Z at it. -/
  | decodedCount (move : Move) (encZ : Bool)
  /-- QUADRATURE_ERROR: both encoder lines change. -/
  | quadratureError
  | stallTimerExpiry
  | trigPulseEnd (p : PortId)
  | tagFrameSent (p : PortId)
  | readBackError (p : PortId)
  /-- RETURN_FRAME_RECEIVED: the well-formed bytes received, in order. -/
  | returnFrameReceived (p : PortId) (bytes : List Byte)
  | returnByteFrameError (p : PortId)
  | returnTimeout (p : PortId)
  | strayByte (p : PortId)
  | lineStuck (p : PortId)
  | wakePulseEnd (p : PortId)
  /-- READY_RETURN: the well-formed bytes received, in order. -/
  | readyReturn (p : PortId) (bytes : List Byte)
  | wakeTimeout (p : PortId)
  | intervalTimerExpiry (p : PortId)
  /-- ECHO_ON_SENT: whether a byte of the frame read back wrongly. -/
  | echoOnSent (p : PortId) (mismatch : Bool)
  | patternByteSent (p : PortId)
  /-- PATTERN_ECHO_RECEIVED: the data bits of the echoed byte. -/
  | patternEchoReceived (p : PortId) (echo : Byte)
  | echoMissing (p : PortId)
  | patternBlockJudged (p : PortId)
  /-- ECHO_OFF_SENT: whether a byte of the frame read back wrongly. -/
  | echoOffSent (p : PortId) (mismatch : Bool)
  | intlkAsserted
  | intlkDeasserted
  | qualificationTimerExpiry
  | handoverExpiry (c : ClaimId)
  -- the select line and the frames that are not taken
  | selectAsserted (m : Master)
  /-- SELECT_DEASSERTED: whether a rising edge of SCK was seen in the select period. -/
  | selectDeasserted (m : Master) (clocked : Bool)
  | unknownRequestCode (m : Master) (code : Byte) (params : List Byte)
  /-- REQUEST_BAD_CHECK: the frame's code, parameters and (wrong) check byte. -/
  | requestBadCheck (m : Master) (code : Byte) (params : List Byte) (check : Byte)
  /-- REQUEST_BAD_LENGTH: the code, the length byte, and every byte received after it. -/
  | requestBadLength (m : Master) (code : Byte) (length : Byte) (rest : List Byte)
  -- requests of the Plan Store, Angle Unit and Permit Unit
  | putBlade (m : Master) (image : BladeImage)
  | dropBlade (m : Master) (blade : Byte)
  | readBlade (m : Master) (selector value : Byte)
  | openPlan (m : Master)
  | activatePlan (m : Master)
  | setAngleConfig (m : Master) (write : Option AngleParams)
  | setAdapt (m : Master) (write : Option AdaptParams)
  | resetCorrection (m : Master) (scope blade : Byte)
  | setPermitConfig (m : Master) (write : Option Half)
  -- requests of the Claim Unit
  | claim (m : Master) (name : Byte)
  | release (m : Master) (name : Byte)
  | take (m : Master) (name : Byte)
  | decline (m : Master) (name : Byte)
  -- requests of the Head Link Controllers and the test modes
  | portOn (m : Master) (port : Byte)
  | portOff (m : Master) (port force : Byte)
  | resumePort (m : Master) (port : Byte)
  | setPortConfig (m : Master) (port : Byte) (write : Option PortParams)
  | readPortCounters (m : Master) (port : Byte)
  | startTest (m : Master) (port : Byte) (test : TestParams)
  | stopTest (m : Master) (port : Byte)
  | insertError (m : Master) (port : Byte)
  -- requests of the Pass Manager
  | repeatNext (m : Master) (value : Byte)
  | submitPass (m : Master) (pass : SubmitParams)
  | abortPass (m : Master) (tag : Byte)
  | queryPass (m : Master) (tag : Byte)
  -- holds, results, notices, status and resets
  | hold (m : Master)
  | unhold (m : Master)
  | fetch (m : Master)
  | clearNotices (m : Master) (mask : Byte)
  | setNoticeEnable (m : Master) (write : Option Byte)
  | readStatus (m : Master)
  | scanReset (m : Master)
  | linkReset (m : Master)
  deriving DecidableEq, Repr

end Sys2Proof
end

