-- ==== Sys2Proof/Decode.lean ====
section
/-! DEFINITION. The command that a word spells. The command table gives no row any bits, so no word spells a
command: the part has no instruction words. -/

namespace Sys2Proof

/-- The command whose bits are `w`, for the rows that give bits: there is none. -/
def decodeTableWord (_nbits _w : Nat) : Option Instr := none

end Sys2Proof
end

