-- ==== Sys2Proof/Config.lean ====
section
/-! DEFINITION. What is fixed for the part, and the free values: what the manual leaves open. -/

namespace Sys2Proof.Config

/-- Capacity of the blade table (R23). -/
def tableSize : Nat := 128

/-- Capacity of one port queue (R43). -/
def queueSize : Nat := 16

/-- Capacity of one revolution plan (R64). -/
def planSize : Nat := 8

/-- Capacity of one result queue, held plus reserved (R77). -/
def resultSize : Nat := 128

/-- Capacity of the slip window (R12). -/
def windowSize : Nat := 16

/-- Largest shot count of a pass (R44, R45). -/
def maxShots : Nat := 120

/-- The handover timer's period in milliseconds; no request sets it (R147). -/
def handoverTime : Nat := 2000

/-- Reference periods of 25 ns in one microsecond (40 MHz). -/
def periodsPerMicro : Nat := 40

/-- Reference periods of 25 ns in one millisecond (40 MHz). -/
def periodsPerMilli : Nat := 40000

/-- FREE VALUE (log 6). Whether a time left that is not a whole number of milliseconds is reported as the
next higher whole number. R148 and 12.3 give the time left in milliseconds and no rounding. -/
opaque roundsUp : Nat → Bool

/-- FREE VALUE (log 7). Which of the orders that give different results the four port units take one event
in, for the n-th time that such a choice arises. R73 and R137 give the result for either order and no order. -/
opaque freeOrder : Nat → Nat

/-- FREE VALUE (log 17). Whether the head pulls its link low in the bit time that ends now, where the part does not, by the
count of free choices and the port's number. R121 counts the low bit times of a line, and the table has no command for a
line's level. -/
opaque lineLow : Nat → Nat → Bool

end Sys2Proof.Config
end

