-- ==== Sys2Proof/Machine/State.lean ====
section
/-! DEFINITION. Every piece of state the manual gives the part, as plain data; the three outcomes' reasons;
and the machine right after power-on. Each structure's docstring names the table of the manual it holds. -/

namespace Sys2Proof.Machine

/-! ### Timers -/

/-- A timer: stopped, or running with the time left, in periods of the 40 MHz reference (25 ns). A running
timer with nothing left has run out and waits for its expiry to be taken (log 3, log 4). -/
inductive Timer where
  | stopped
  | running (left : Nat)
  deriving DecidableEq, Repr

/-! ### Angle Unit (1.1) -/

/-- The decoder state: the last sampled levels of ENC_A and ENC_B, `l` low and `h` high, A first. -/
inductive LinePair where
  | ll
  | hl
  | hh
  | lh
  deriving DecidableEq, Repr

/-- A direction of table travel: FORWARD or REVERSE. -/
inductive Direction where
  | forward
  | reverse
  deriving DecidableEq, Repr

/-- How far the angle is trusted (1.5). -/
inductive LockState where
  | noIndex
  | seeking
  | locked
  deriving DecidableEq, Repr

/-- An outcome of the slip window (R12). -/
inductive IndexOutcome where
  | good
  | slip
  deriving DecidableEq, Repr

/-- Which line order counts as forward (1.9). -/
inductive Sense where
  | normal
  | inverted
  deriving DecidableEq, Repr

/-- The angle configuration (1.9); STALL_TIME in milliseconds. -/
structure AngleConfig where
  cpr : Nat
  zeroOffset : Nat
  idxTol : Nat
  lockRevs : Nat
  slipLimit : Nat
  revHyst : Nat
  stallTime : Nat
  sense : Sense
  deriving DecidableEq, Repr

/-- The state of the Angle Unit (1.1). -/
structure AngleUnit where
  decoder : LinePair
  position : Int
  reference : Int
  direction : Direction
  reverseRun : Nat
  lock : LockState
  goodCount : Nat
  slipWindow : List IndexOutcome
  suspect : Bool
  originArmed : Bool
  revolution : BitVec 24
  stall : Timer
  cfg : AngleConfig
  deriving DecidableEq, Repr

/-! ### Plan Store (2.1) -/

/-- Whether the Edge Tracker may change a blade's correction (2.1.1). -/
inductive Tracking where
  | track
  | fixed
  deriving DecidableEq, Repr

/-- One entry of the blade table (2.1.1). -/
structure Blade where
  number : Byte
  start : Nat
  close : Nat
  mark : Option Nat
  correction : Int
  tracking : Tracking
  excluded : Bool
  completed : Nat
  deriving DecidableEq, Repr

/-- Whether the table is being edited or is in use (2.3). -/
inductive PlanState where
  | edit
  | active
  deriving DecidableEq, Repr

/-- The state of the Plan Store (2.1). -/
structure PlanStore where
  blades : List Blade
  state : PlanState
  gain : Nat
  frozen : Bool
  deriving DecidableEq, Repr

/-! ### Passes (3.1) -/

/-- Pass states (3.4); `opened` is OPEN. -/
inductive PassState where
  | queued
  | planned
  | opened
  | draining
  deriving DecidableEq, Repr

/-- The reasons of a FAILED outcome (R52, 12.6). -/
inductive Reason where
  | interlock
  | angleLost
  | tableStall
  | linkFault
  | portOff
  | scanReset
  | windowRange
  deriving DecidableEq, Repr

/-- The outcomes of a pass (R52). -/
inductive PassOutcome where
  | complete
  | flagged
  | aborted
  | failed (reason : Reason)
  deriving DecidableEq, Repr

/-- Revolution marks of the pass revolution under way (3.1.1). -/
structure Marks where
  reversed : Bool
  slipped : Bool
  skipped : Bool
  deriving DecidableEq, Repr

/-- Flags of a pass over all its revolutions (3.1.1). -/
structure PassFlags where
  reversed : Bool
  slipped : Bool
  skipped : Bool
  noEdge : Bool
  clamped : Bool
  deriving DecidableEq, Repr

/-- The Edge Tracker's observation of a live pass (7.1): absent for a pass without the edge flag. -/
inductive Observation where
  | absent
  | empty
  | held (index angle : Nat) (offset : Int)
  deriving DecidableEq, Repr

/-- The last edge update of a pass: the edge error and the correction after it (3.1.1). -/
structure EdgeUpdate where
  error : Int
  correction : Int
  deriving DecidableEq, Repr

/-- The pass record (3.1.1) with its observation (7.1). The port is the port of the queue that holds it. -/
structure Pass where
  tag : Tag
  owner : Master
  blade : Byte
  dir : Direction
  step : Nat
  n : Nat
  len : Nat
  seeded : Bool
  edge : Bool
  follow : Bool
  repeats : Nat
  revsDone : Nat
  fired : Nat
  clean : Nat
  flagged : Nat
  marks : Marks
  flags : PassFlags
  lastEdge : Option EdgeUpdate
  state : PassState
  pendingOutcome : Option PassOutcome
  observation : Observation
  deriving DecidableEq, Repr

/-- An entry of a revolution plan (4.1) with what the Trigger Unit keeps for it (5.1). -/
structure PlanEntry where
  tag : Tag
  first : Nat
  last : Nat
  dir : Direction
  n : Nat
  step : Nat
  next : Nat
  fired : Nat
  deriving DecidableEq, Repr

/-! ### Shots, exchanges and records (5.10, 6.4, 12.6) -/

/-- The kind of a shot and of its record: TEST or SHOT (R100). -/
inductive ShotKind where
  | test
  | pass
  deriving DecidableEq, Repr

/-- A shot description (R100). `tag` is the pass's tag, or the port number for a test shot; `orphan` says that
the owner's LINK_RESET has been taken since the shot fired (R117). -/
structure Shot where
  kind : ShotKind
  tag : Tag
  owner : Master
  blade : Byte
  index : Byte
  angle : Nat
  revolution : BitVec 24
  slip : Bool
  len : Nat
  seeded : Bool
  orphan : Bool
  deriving DecidableEq, Repr

/-- How a shot's exchange ended (6.4), or OVERRUN for a shot that got none (R119). -/
inductive Ending where
  | clean
  | seq
  | crc
  | frame
  | timeout
  | bit
  | stuck
  | aborted
  | overrun
  deriving DecidableEq, Repr

/-- The phase of an exchange in flight (6.1). -/
inductive ExchangePhase where
  | sending
  | awaiting
  deriving DecidableEq, Repr

/-- The exchange in flight (6.1), with the tag frame it sends (R113), what is left of the time that the frame takes
(`sendTimer`, R104), its return timer (`timer`, R115), and the bit time (in sixteenths of a reference period), STOP_BITS
and RTO it started with (R106). -/
structure Exchange where
  shot : Shot
  frame : List Byte
  sendTimer : Timer
  phase : ExchangePhase
  received : List Byte
  timer : Timer
  bitTime : Nat
  stopBits : Nat
  rto : Nat
  deriving DecidableEq, Repr

/-- A SHOT or TEST_SHOT record (12.6); `data` holds the return bytes kept, none unless the ending is clean or
SEQ, so its length is the returned length (R190). -/
structure ShotRecord where
  kind : ShotKind
  tag : Tag
  port : PortId
  blade : Byte
  index : Byte
  revolution : Half
  angle : Nat
  slip : Bool
  ending : Ending
  data : List Byte
  deriving DecidableEq, Repr

/-- A PASS_END record (R57, 12.6). -/
structure PassEndRecord where
  tag : Tag
  port : PortId
  blade : Byte
  outcome : PassOutcome
  revsDone : Nat
  fired : Nat
  clean : Nat
  flags : PassFlags
  lastEdge : Option EdgeUpdate
  deriving DecidableEq, Repr

/-- A record of a result queue (12.6). -/
inductive Record where
  | shot (r : ShotRecord)
  | passEnd (r : PassEndRecord)
  deriving DecidableEq, Repr

/-! ### Head ports (6.1, 10.1) -/

/-- Port states (6.3). -/
inductive PortState where
  | off
  | waking
  | ready
  | test
  | fault
  deriving DecidableEq, Repr

/-- Why the port entered FAULT (6.1). -/
inductive FaultReason where
  | none
  | stuck
  | errors
  | wakeTimeout
  deriving DecidableEq, Repr

/-- The port configuration (6.2); TRIG_WIDTH in microseconds, WAKE_TIME in milliseconds. -/
structure PortConfig where
  divisor : Nat
  fraction : Nat
  stopBits : Nat
  rto : Nat
  errLimit : Nat
  trigWidth : Nat
  wakeTime : Nat
  deriving DecidableEq, Repr

/-- The phase of a SWEEP test; once begun it has a direction, a next position and revolutions remaining (10.1). -/
inductive SweepPhase where
  | waiting
  | running (dir : Direction) (next : Option Nat) (remaining : Nat)
  deriving DecidableEq, Repr

/-- Where the pattern travels (10.1). -/
inductive Loop where
  | internal
  | echo
  deriving DecidableEq, Repr

/-- What a PATTERN test is doing (R168, R169, R172): sending ECHO_ON, sending a pattern byte (on the line with
ECHO, inside the part with INTERNAL), awaiting its echo, sending ECHO_OFF. -/
inductive PatternPhase where
  | echoOn
  | byte
  | echo
  | echoOff
  deriving DecidableEq, Repr

/-- The state of a PATTERN test (10.1). `generator` and `register` hold the most recent bit in bit 0 and the
bit 15 places back in bit 14; `filled` counts the bits the checker has held since the start, up to 15;
`waiting` holds the received bits the checker has still to take (log 14); `sending` is what a test with the ECHO
loop last put on the line, and stays empty with the INTERNAL loop, which leaves the line released (R168); `bits` are the data
bits of the byte under way that have been sent, first one first (R169, R171, log 15), none in another phase;
`sendTimer` is what is left of the time that the frame or the pattern byte takes (R104), stopped while an echo is awaited;
`echoTimer` bounds the wait for an echo's start bit. -/
structure Pattern where
  loop : Loop
  phase : PatternPhase
  sending : List Byte
  bits : List Bool
  sendTimer : Timer
  generator : BitVec 15
  register : BitVec 15
  filled : Nat
  waiting : List Bool
  blockBits : Nat
  blockErrors : Nat
  insert : Bool
  stopping : Bool
  echoTimer : Timer
  deriving DecidableEq, Repr

/-- The mode of a running test with that mode's own state (10.1); `len` is the test return length, `interval`
in milliseconds. -/
inductive TestMode where
  | shot (len interval : Nat) (timer : Timer)
  | sweep (len step revs : Nat) (phase : SweepPhase)
  | pattern (p : Pattern)
  deriving DecidableEq, Repr

/-- A running test (10.1): recipient, test shot counter and mode. -/
structure Test where
  recipient : Master
  counter : Byte
  mode : TestMode
  deriving DecidableEq, Repr

/-- Synchronisation of the pattern checker (10.1). -/
inductive CheckerState where
  | hunting
  | synced
  deriving DecidableEq, Repr

/-- One head port: its Head Link Controller (6.1), test state (10.1; `test` is none in mode NONE), Trigger
Unit's line (5.1; `trigger` true is ACTIVE), revolution plan (4.1) and port queue (3.1). `slot` is the pending
slot; `wakePulse` runs while the part drives the wake pulse; `wakeBytes` are the last well-formed bytes
received in WAKING (R108). `bitLeft` is what is left of the bit time in which the line is watched for the low run
(R104, R121), in sixteenths of a reference period, and 0 when none has begun: the model's own field (log 17). -/
structure Port where
  state : PortState
  fault : FaultReason
  cfg : PortConfig
  exchange : Option Exchange
  slot : Option Shot
  wakePulse : Timer
  wake : Timer
  wakeBytes : List Byte
  lowRun : Nat
  bitLeft : Nat
  consecutive : Nat
  linkErrors : Nat
  testSkips : Nat
  patternErrors : Nat
  checker : CheckerState
  trigger : Bool
  pulse : Timer
  queue : List Pass
  plan : List PlanEntry
  test : Option Test
  deriving DecidableEq, Repr

/-! ### Permit Unit (8.1) and Claim Unit (9.1) -/

/-- How far the INTLK line is trusted (8.1). -/
inductive Qualification where
  | blocked
  | qualifying
  | lineOk
  deriving DecidableEq, Repr

/-- Whether trigger lines may fire (8.1). -/
inductive Permit where
  | notPermitted
  | permitted
  deriving DecidableEq, Repr

/-- The state of the Permit Unit (8.1); QUAL_TIME in milliseconds; bit m of `hold` is master m (12.2). -/
structure PermitUnit where
  qualification : Qualification
  timer : Timer
  qualTime : Nat
  hold : BitVec 3
  permit : Permit
  deriving DecidableEq, Repr

/-- The state of one claim (9.1); `left` is the handover timer's time left. -/
inductive Claim where
  | free
  | held (holder : Master)
  | handover (holder claimant : Master) (left : Nat)
  deriving DecidableEq, Repr

/-! ### Master Link Interfaces (11.1) -/

/-- The transaction phase (11.1). -/
inductive Phase where
  | idle
  | request
  | turnaround
  | reply
  | done
  deriving DecidableEq, Repr

/-- One Master Link Interface (11.1) with the link's repeat prefix (3.1). `turnaround` is the number of
turnaround bytes still to come, `reply` the reply bytes still to be shifted out, `selectHeld` that the select
has been asserted since power-on without a deassertion (R174), `records` the result queue, `attention` true
for ACTIVE. -/
structure Link where
  phase : Phase
  request : List Byte
  turnaround : Nat
  reply : List Byte
  selectHeld : Bool
  records : List Record
  reserved : Nat
  flags : Byte
  enables : Byte
  attention : Bool
  abandoned : Nat
  repeats : Option Nat
  deriving DecidableEq, Repr

/-! ### The whole part -/

/-- The whole state of the part. `choices` counts the free order choices and the idle periods so far, and so
numbers the free values (the model's own field, log 7, log 17), and `pending` is the queue of waiting commands, first in first out (log 2). -/
structure State where
  angle : AngleUnit
  plan : PlanStore
  ports : Vector Port 4
  permit : PermitUnit
  claims : Vector Claim 5
  links : Vector Link 3
  choices : Nat
  pending : List Instr
  deriving DecidableEq, Repr

/-- Why a step may stop the machine: for no reason. The manual stops the part at no command; a refused
request is a reply status and a link error a record flag, a count or port state FAULT. Safe: there is nothing
to raise. -/
inductive Fault where
  deriving DecidableEq, Repr

/-- Why a command may have no meaning. -/
inductive Refusal where
  /-- Raised by `exec` for a command that has no meaning yet; no arm raises it. Safe: the machine stops. -/
  | notModelled (mnemonic : String)
  deriving DecidableEq, Repr

/-! ### Power-on (R1, R40, R41, R65, R83, R103, R127, R139, R147, R159, R174) -/

/-- The power-on values of the angle configuration (1.9). -/
def AngleConfig.powerOn : AngleConfig where
  cpr := 65536
  zeroOffset := 0
  idxTol := 4
  lockRevs := 3
  slipLimit := 2
  revHyst := 16
  stallTime := 500
  sense := .normal

/-- The Angle Unit after power-on (R1); the decoder state is sampled, here both lines low (log 1). -/
def AngleUnit.powerOn : AngleUnit where
  decoder := .ll
  position := 0
  reference := 0
  direction := .forward
  reverseRun := 0
  lock := .noIndex
  goodCount := 0
  slipWindow := []
  suspect := false
  originArmed := false
  revolution := 0
  stall := .stopped
  cfg := AngleConfig.powerOn

/-- The Plan Store after power-on (R40). -/
def PlanStore.powerOn : PlanStore where
  blades := []
  state := .edit
  gain := 2
  frozen := false

/-- The power-on values of the port configuration (6.2). -/
def PortConfig.powerOn : PortConfig where
  divisor := 40
  fraction := 0
  stopBits := 1
  rto := 16
  errLimit := 3
  trigWidth := 10
  wakeTime := 200

/-- One head port after power-on (R41, R65, R83, R103, R159). -/
def Port.powerOn : Port where
  state := .off
  fault := .none
  cfg := PortConfig.powerOn
  exchange := none
  slot := none
  wakePulse := .stopped
  wake := .stopped
  wakeBytes := []
  lowRun := 0
  bitLeft := 0
  consecutive := 0
  linkErrors := 0
  testSkips := 0
  patternErrors := 0
  checker := .hunting
  trigger := false
  pulse := .stopped
  queue := []
  plan := []
  test := none

/-- The Permit Unit after power-on with INTLK deasserted (R139, log 1). -/
def PermitUnit.powerOn : PermitUnit where
  qualification := .blocked
  timer := .stopped
  qualTime := 500
  hold := 0
  permit := .notPermitted

/-- One Master Link Interface after power-on with SEL deasserted (R174, R41, log 1). -/
def Link.powerOn : Link where
  phase := .idle
  request := []
  turnaround := 0
  reply := []
  selectHeld := false
  records := []
  reserved := 0
  flags := 0
  enables := 0
  attention := false
  abandoned := 0
  repeats := none

/-- The part right after the release of RESET_N. Where R1, R139 and R174 sample a pin, the level is the one
of log 1: ENC_A and ENC_B low, INTLK deasserted, every SEL deasserted. -/
def State.reset : State where
  angle := AngleUnit.powerOn
  plan := PlanStore.powerOn
  ports := Vector.replicate 4 Port.powerOn
  permit := PermitUnit.powerOn
  claims := Vector.replicate 5 Claim.free
  links := Vector.replicate 3 Link.powerOn
  choices := 0
  pending := []

end Sys2Proof.Machine
end

