-- ==== Sys2Proof/Machine/Flags.lean ====
section
/-! DEFINITION. Every flag byte of the manual: notice masks, shot flags, pass flags, option bits and the
status bits of a head's return (12.2 to 12.6). -/

namespace Sys2Proof.Machine

/-- The eight notices (11.5). -/
inductive Notice where
  | result
  | passEnd
  | lock
  | permit
  | claim
  | portFault
  | testEnd
  | pattern
  deriving DecidableEq, Repr

/-- The bit of a notice in a notice mask (12.2). -/
def Notice.mask : Notice → Byte
  | .result => 0x01
  | .passEnd => 0x02
  | .lock => 0x04
  | .permit => 0x08
  | .claim => 0x10
  | .portFault => 0x20
  | .testEnd => 0x40
  | .pattern => 0x80

/-- `b` as bit `k` of a number. -/
def flagBit (b : Bool) (k : Nat) : Nat := if b then 2 ^ k else 0

/-- The flag an ending adds to its record: its bit in the two flag bytes (6.4, 12.6); none for a clean one. -/
def Ending.flag : Ending → Nat
  | .clean => 0
  | .overrun => 2 ^ 1
  | .timeout => 2 ^ 2
  | .crc => 2 ^ 3
  | .frame => 2 ^ 4
  | .bit => 2 ^ 5
  | .seq => 2 ^ 6
  | .aborted => 2 ^ 7
  | .stuck => 2 ^ 8

/-- Bytes 10 and 11 of a SHOT or TEST_SHOT record as one number (12.6). -/
def ShotRecord.flags (r : ShotRecord) : Nat := flagBit r.slip 0 + r.ending.flag

/-- Whether the record carries any flag, and so counts as flagged (R50). -/
def ShotRecord.flagged (r : ShotRecord) : Bool := r.slip || decide (r.ending ≠ .clean)

/-- Whether an ending raises the consecutive-error count (R118, step 1). -/
def Ending.errored : Ending → Bool
  | .bit | .frame | .timeout | .crc | .seq => true
  | .clean | .stuck | .aborted | .overrun => false

/-- Whether an ending keeps the return's data bytes (R116). -/
def Ending.keepsData : Ending → Bool
  | .clean | .seq => true
  | .crc | .frame | .timeout | .bit | .stuck | .aborted | .overrun => false

/-- The pass flags byte; bit 5 marks an edge update (12.6, log 19). -/
def passFlagsByte (f : PassFlags) (lastEdge : Option EdgeUpdate) : Byte :=
  BitVec.ofNat 8 (flagBit f.reversed 0 + flagBit f.slipped 1 + flagBit f.skipped 2 + flagBit f.noEdge 3
    + flagBit f.clamped 4 + flagBit lastEdge.isSome 5)

/-- The options byte of a pass: seeded check, edge, follow correction (12.3). -/
def Pass.options (x : Pass) : Byte :=
  BitVec.ofNat 8 (flagBit x.seeded 0 + flagBit x.edge 1 + flagBit x.follow 2)

/-- READY of a return's status byte (12.5). -/
def statusReady (b : Byte) : Bool := b.getLsbD 0

/-- EDGE of a return's status byte (12.5). -/
def statusEdge (b : Byte) : Bool := b.getLsbD 1

/-- HEAD_FAULT of a return's status byte (12.5). -/
def statusHeadFault (b : Byte) : Bool := b.getLsbD 4

/-- No mark. -/
def Marks.none : Marks := ⟨false, false, false⟩

/-- No flag. -/
def PassFlags.none : PassFlags := ⟨false, false, false, false, false⟩

end Sys2Proof.Machine
end

