-- ==== Sys2Proof/Machine/Frames.lean ====
section
/-! DEFINITION. The byte layouts of chapter 12: check bytes, little-endian fields, enumerated values, master
link frames and their checks, tag frames, records and blade entry images. -/

namespace Sys2Proof.Machine

/-! ### Check bytes (12.1, R188) -/

/-- One of the eight steps of R188: shift left, and combine the polynomial when bit 7 was 1. -/
def crcStep (poly reg : Byte) : Byte :=
  if reg.getLsbD 7 then (reg <<< 1) ^^^ poly else reg <<< 1

/-- `k` steps of the check register. -/
def crcSteps (poly : Byte) : Nat → Byte → Byte
  | 0, reg => reg
  | k + 1, reg => crcSteps poly k (crcStep poly reg)

/-- The check byte over the covered bytes in frame order (R188). -/
def checkByte (poly init : Byte) (covered : List Byte) : Byte :=
  covered.foldl (fun reg b => crcSteps poly 8 (reg ^^^ b)) init

/-- The master link check: low byte of polynomial 31, initial value FF (12.1). -/
def linkCheck (covered : List Byte) : Byte := checkByte 0x31 0xFF covered

/-- The head link check: low byte of polynomial 07, with its initial value (12.1). -/
def headCheck (init : Byte) (covered : List Byte) : Byte := checkByte 0x07 init covered

/-! ### Multi-byte fields: little-endian, lowest byte first (chapter 12) -/

/-- The `k` bytes of a number, lowest byte first. -/
def leBytes : Nat → Nat → List Byte
  | 0, _ => []
  | k + 1, x => BitVec.ofNat 8 x :: leBytes k (x / 256)

/-- The `k` bytes of a signed number in two's complement, lowest byte first. -/
def leBytesInt (k : Nat) (x : Int) : List Byte := leBytes k (x % (256 ^ k : Nat)).toNat

/-- The number whose bytes, lowest first, are given. -/
def ofLeBytes : List Byte → Nat
  | [] => 0
  | b :: rest => b.toNat + 256 * ofLeBytes rest

/-- A count as one byte. -/
def byteOf (x : Nat) : Byte := BitVec.ofNat 8 x

/-! ### Status codes (12.2.1) -/

/-- The reply statuses. -/
inductive Status where
  | ok
  | badCheck
  | badLength
  | unknown
  | notHolder
  | heldByOther
  | busy
  | wrongState
  | range
  | notPermitted
  | empty
  | tableFull
  | duplicate
  | noSuchBlade
  | excluded
  | queueFull
  | resultFull
  | tooManyShots
  | noSuchPass
  deriving DecidableEq, Repr

/-- The value of a status (12.2.1). -/
def Status.code : Status → Byte
  | .ok => 0x00
  | .badCheck => 0x01
  | .badLength => 0x02
  | .unknown => 0x03
  | .notHolder => 0x04
  | .heldByOther => 0x05
  | .busy => 0x06
  | .wrongState => 0x07
  | .range => 0x08
  | .notPermitted => 0x09
  | .empty => 0x0A
  | .tableFull => 0x0B
  | .duplicate => 0x0C
  | .noSuchBlade => 0x0D
  | .excluded => 0x0E
  | .queueFull => 0x0F
  | .resultFull => 0x10
  | .tooManyShots => 0x11
  | .noSuchPass => 0x12

/-! ### Enumerated values (12.2) -/

/-- 0 FORWARD, 1 REVERSE. -/
def Direction.code : Direction → Nat
  | .forward => 0
  | .reverse => 1

/-- 0 NO_INDEX, 1 SEEKING, 2 LOCKED. -/
def LockState.code : LockState → Nat
  | .noIndex => 0
  | .seeking => 1
  | .locked => 2

/-- 0 NORMAL, 1 INVERTED. -/
def Sense.code : Sense → Nat
  | .normal => 0
  | .inverted => 1

/-- 0 EDIT, 1 ACTIVE. -/
def PlanState.code : PlanState → Nat
  | .edit => 0
  | .active => 1

/-- 0 TRACK, 1 FIXED. -/
def Tracking.code : Tracking → Nat
  | .track => 0
  | .fixed => 1

/-- 0 OFF, 1 WAKING, 2 READY, 3 TEST, 4 FAULT. -/
def PortState.code : PortState → Nat
  | .off => 0
  | .waking => 1
  | .ready => 2
  | .test => 3
  | .fault => 4

/-- 0 NONE, 1 STUCK, 2 ERRORS, 3 WAKE_TIMEOUT. -/
def FaultReason.code : FaultReason → Nat
  | .none => 0
  | .stuck => 1
  | .errors => 2
  | .wakeTimeout => 3

/-- 0 BLOCKED, 1 QUALIFYING, 2 LINE_OK. -/
def Qualification.code : Qualification → Nat
  | .blocked => 0
  | .qualifying => 1
  | .lineOk => 2

/-- 0 NOT_PERMITTED, 1 PERMITTED. -/
def Permit.code : Permit → Nat
  | .notPermitted => 0
  | .permitted => 1

/-- 0 QUEUED, 1 PLANNED, 2 OPEN, 3 DRAINING. -/
def PassState.code : PassState → Nat
  | .queued => 0
  | .planned => 1
  | .opened => 2
  | .draining => 3

/-- 0 HUNTING, 1 SYNCED. -/
def CheckerState.code : CheckerState → Nat
  | .hunting => 0
  | .synced => 1

/-- The reason codes of 12.6; 0 is NONE. -/
def Reason.code : Reason → Nat
  | .interlock => 1
  | .angleLost => 2
  | .tableStall => 3
  | .linkFault => 4
  | .portOff => 5
  | .scanReset => 6
  | .windowRange => 7

/-- The outcome codes of 12.6. -/
def PassOutcome.code : PassOutcome → Nat
  | .complete => 0
  | .flagged => 1
  | .aborted => 2
  | .failed _ => 3

/-- The reason that stands beside an outcome: NONE unless FAILED (R52). -/
def PassOutcome.reasonCode : PassOutcome → Nat
  | .failed r => r.code
  | .complete | .flagged | .aborted => 0

/-- A holder or claimant as a byte: 0..2, or FF for none (12.2). -/
def masterByte : Option Master → Byte
  | some m => byteOf m.val
  | none => 0xFF

/-- A holder or claimant as two bits: 3 for none (12.3.1). -/
def masterBits : Option Master → Nat
  | some m => m.val
  | none => 3

/-! ### Master link frames (12.2, 11.2) -/

/-- The largest N of a request (12.2). -/
def maxParams : Nat := 28

/-- A request frame with a given check byte. -/
def rawFrame (code : Byte) (params : List Byte) (check : Byte) : List Byte :=
  code :: byteOf params.length :: (params ++ [check])

/-- A request frame with the check byte that matches it. -/
def requestFrame (code : Byte) (params : List Byte) : List Byte :=
  rawFrame code params (linkCheck (code :: byteOf params.length :: params))

/-- A reply frame: status, M, data, check (12.2). -/
def replyFrame (status : Status) (data : List Byte) : List Byte :=
  status.code :: byteOf data.length
    :: (data ++ [linkCheck (status.code :: byteOf data.length :: data)])

/-- The lengths N that each request code allows (12.3); none for a code that is not a request code. -/
def lengthsOf (code : Byte) : List Nat :=
  match code.toNat with
  | 0x10 => [12]
  | 0x11 => [1]
  | 0x12 => [2]
  | 0x13 => [0]
  | 0x14 => [0]
  | 0x15 => [0, 14]
  | 0x16 => [0, 2]
  | 0x17 => [2]
  | 0x18 => [0, 2]
  | 0x20 => [1]
  | 0x21 => [1]
  | 0x22 => [1]
  | 0x23 => [1]
  | 0x30 => [1]
  | 0x31 => [2]
  | 0x32 => [1]
  | 0x33 => [1, 10]
  | 0x34 => [1]
  | 0x35 => [6]
  | 0x36 => [1]
  | 0x37 => [1]
  | 0x40 => [1]
  | 0x41 => [8]
  | 0x42 => [1]
  | 0x43 => [1]
  | 0x48 => [0]
  | 0x49 => [0]
  | 0x50 => [0]
  | 0x51 => [1]
  | 0x52 => [0, 1]
  | 0x53 => [0]
  | 0x5E => [0]
  | 0x5F => [0]
  | _ => []

/-- The checks of R176 on the bytes of a request, in order: the first that fails gives the status, none when
all pass. A length byte above 28 ends the request at the byte after it, with BAD_LENGTH and no check. -/
def frameFault (frame : List Byte) : Option Status :=
  match frame with
  | code :: length :: rest =>
    if maxParams < length.toNat then some .badLength
    else if rest.getLast? ≠ some (linkCheck (code :: length :: rest.dropLast)) then some .badCheck
    else if lengthsOf code = [] then some .unknown
    else if length.toNat ∈ lengthsOf code then none
    else some .badLength
  | [] | [_] => some .badCheck

/-! ### Head link frames (12.5) -/

/-- The kinds of a tag frame (12.5). -/
inductive TagKind where
  | test
  | shot
  | echoOn
  | echoOff
  deriving DecidableEq, Repr

/-- 0 TEST, 1 SHOT, 2 ECHO_ON, 3 ECHO_OFF. -/
def TagKind.code : TagKind → Nat
  | .test => 0
  | .shot => 1
  | .echoOn => 2
  | .echoOff => 3

/-- The four bytes of a tag frame (12.5): kind in bits 6 and 7 with the tag or port number below it, the shot
index, the low byte of the revolution number, and the head link check with initial value 00. -/
def tagFrame (kind : TagKind) (tag : Nat) (index : Byte) (revolution : BitVec 24) : List Byte :=
  let b0 := byteOf (64 * kind.code + tag)
  let b2 := revolution.setWidth 8
  [b0, index, b2, headCheck 0 [b0, index, b2]]

/-- The tag frame of a shot (R113). -/
def Shot.frame (sh : Shot) : List Byte :=
  tagFrame (match sh.kind with | .pass => .shot | .test => .test) sh.tag.val sh.index sh.revolution

/-- The value the return's check starts from: the tag frame's first byte when seeded, 00 when plain (R113). -/
def Shot.returnSeed (sh : Shot) : Byte := if sh.seeded then sh.frame.headD 0 else 0

/-! ### Records (12.6, R190) -/

/-- Byte `k` of the kept return data, 0 when not covered (R190). -/
def ShotRecord.dataByte (r : ShotRecord) (k : Nat) : Byte := r.data.getD k 0

/-- The 20 bytes of a SHOT or TEST_SHOT record. The second data byte, the echo, has no field. -/
def ShotRecord.bytes (r : ShotRecord) : List Byte :=
  [match r.kind with | .pass => 1 | .test => 2, byteOf r.tag.val, byteOf r.port.val, r.blade, r.index]
    ++ leBytes 2 r.revolution.toNat ++ leBytes 3 r.angle ++ leBytes 2 r.flags
    ++ [byteOf r.data.length, r.dataByte 0, r.dataByte 2, r.dataByte 3, r.dataByte 4, r.dataByte 5,
        r.dataByte 6, r.dataByte 7]

/-- The 20 bytes of a PASS_END record; the edge fields read 0 when the pass made no edge update. -/
def PassEndRecord.bytes (r : PassEndRecord) : List Byte :=
  [3, byteOf r.tag.val, byteOf r.port.val, r.blade, byteOf r.outcome.code, byteOf r.outcome.reasonCode,
    byteOf r.revsDone]
    ++ leBytes 2 r.fired ++ leBytes 2 r.clean ++ [passFlagsByte r.flags r.lastEdge]
    ++ leBytesInt 4 ((r.lastEdge.map EdgeUpdate.error).getD 0)
    ++ leBytesInt 2 ((r.lastEdge.map EdgeUpdate.correction).getD 0) ++ [0, 0]

/-- The 20 bytes of a record (12.6). -/
def Record.bytes : Record → List Byte
  | .shot r => r.bytes
  | .passEnd r => r.bytes

/-! ### Blade entry images (12.4) -/

/-- The 16 bytes that READ_BLADE returns: bits 2 to 4 of the options read 0, an absent edge mark reads 0. -/
def Blade.bytes (b : Blade) : List Byte :=
  [b.number] ++ leBytes 3 b.start ++ leBytes 3 b.close ++ leBytes 3 (b.mark.getD 0)
    ++ [byteOf (flagBit b.mark.isSome 0 + flagBit b.excluded 1), byteOf b.tracking.code]
    ++ leBytesInt 2 b.correction ++ leBytes 2 b.completed

end Sys2Proof.Machine
end

