-- ==== Sys2Proof/Machine/Operands.lean ====
section
/-! DEFINITION. Request operands: the parameter bytes of each layout of 12.3, and the values that the range
checks of the owning blocks allow. A function that reads an operand answers none outside its range (R189). -/

namespace Sys2Proof.Machine

/-- `x` lies in `lo..hi`, both included. -/
def within (lo hi x : Nat) : Bool := decide (lo ≤ x ∧ x ≤ hi)

/-- A time in milliseconds in `lo..hi` in steps of 10 ms. -/
def tenMillis (lo hi x : Nat) : Bool := within lo hi x && x % 10 == 0

/-- A direction byte: 0 FORWARD, 1 REVERSE (12.2). -/
def readDirection (b : Byte) : Option Direction :=
  match b.toNat with
  | 0 => some .forward
  | 1 => some .reverse
  | _ => none

/-- A SENSE byte: 0 NORMAL, 1 INVERTED (12.2). -/
def readSense (b : Byte) : Option Sense :=
  match b.toNat with
  | 0 => some .normal
  | 1 => some .inverted
  | _ => none

/-- A tracking byte: 0 TRACK, 1 FIXED (12.2). -/
def readTracking (b : Byte) : Option Tracking :=
  match b.toNat with
  | 0 => some .track
  | 1 => some .fixed
  | _ => none

/-- A freeze byte: 0 NOT_FROZEN, 1 FROZEN (12.2). -/
def readFreeze (b : Byte) : Option Bool :=
  match b.toNat with
  | 0 => some false
  | 1 => some true
  | _ => none

/-- A port number 0..3. -/
def readPort (b : Byte) : Option PortId := if h : b.toNat < 4 then some ⟨b.toNat, h⟩ else none

/-- A claim name: 0 PLAN, 1 to 4 PORT 0 to PORT 3 (12.2). -/
def readClaim (b : Byte) : Option ClaimId := if h : b.toNat < 5 then some ⟨b.toNat, h⟩ else none

/-- A tag 0..63. -/
def readTag (b : Byte) : Option Tag := if h : b.toNat < 64 then some ⟨b.toNat, h⟩ else none

/-- A return length: 2, 4, 6 or 8. -/
def readLength (b : Byte) : Option Nat :=
  if b.toNat = 2 ∨ b.toNat = 4 ∨ b.toNat = 6 ∨ b.toNat = 8 then some b.toNat else none

/-! ### PUT_BLADE (12.4) -/

/-- The parameter bytes of PUT_BLADE. -/
def bladeParams (im : BladeImage) : List Byte :=
  [im.number] ++ leBytes 3 im.start.toNat ++ leBytes 3 im.close.toNat ++ leBytes 3 im.mark.toNat
    ++ [im.options, im.tracking]

/-- The edge mark, when the image says one is present. -/
def imageMark (im : BladeImage) : Option Nat := if im.options.getLsbD 0 then some im.mark.toNat else none

/-- Whether the image has excluded set. -/
def imageExcluded (im : BladeImage) : Bool := im.options.getLsbD 1

/-- Whether the image has replace set. -/
def imageReplace (im : BladeImage) : Bool := im.options.getLsbD 2

/-- Whether the image has reset correction set. -/
def imageResetCorrection (im : BladeImage) : Bool := im.options.getLsbD 3

/-- Whether the image has reset count set. -/
def imageResetCount (im : BladeImage) : Bool := im.options.getLsbD 4

/-- The range check of PUT_BLADE (R26): the new entry when every field is in range for this CPR. -/
def readBladeImage (cpr : Nat) (im : BladeImage) : Option Blade :=
  match readTracking im.tracking with
  | none => none
  | some tracking =>
    if within 1 (cpr - 2) im.start.toNat
        && within (im.start.toNat + 1) (cpr - 1) im.close.toNat
        && (imageMark im).all (within im.start.toNat im.close.toNat) then
      some { number := im.number, start := im.start.toNat, close := im.close.toNat, mark := imageMark im,
             correction := 0, tracking := tracking, excluded := imageExcluded im, completed := 0 }
    else none

/-! ### SET_ANGLE_CONFIG (12.3, 1.9) -/

/-- The parameter bytes of SET_ANGLE_CONFIG. -/
def angleParams : Option AngleParams → List Byte
  | none => []
  | some a => leBytes 4 a.cpr.toNat ++ leBytes 3 a.zeroOffset.toNat
      ++ [a.idxTol, a.lockRevs, a.slipLimit, a.revHyst] ++ leBytes 2 a.stallTime.toNat ++ [a.sense]

/-- The range check of SET_ANGLE_CONFIG (R20, 1.9): the configuration when every parameter is in range. -/
def readAngleParams (a : AngleParams) : Option AngleConfig :=
  match readSense a.sense with
  | none => none
  | some sense =>
    if within 4096 16777216 a.cpr.toNat && decide (a.zeroOffset.toNat < a.cpr.toNat)
        && within 0 63 a.idxTol.toNat && within 2 8 a.lockRevs.toNat && within 1 8 a.slipLimit.toNat
        && within 1 255 a.revHyst.toNat && tenMillis 10 2550 a.stallTime.toNat then
      some { cpr := a.cpr.toNat, zeroOffset := a.zeroOffset.toNat, idxTol := a.idxTol.toNat,
             lockRevs := a.lockRevs.toNat, slipLimit := a.slipLimit.toNat, revHyst := a.revHyst.toNat,
             stallTime := a.stallTime.toNat, sense := sense }
    else none

/-- The fourteen reply bytes of SET_ANGLE_CONFIG: the parameters in force (12.3). -/
def AngleConfig.bytes (c : AngleConfig) : List Byte :=
  leBytes 4 c.cpr ++ leBytes 3 c.zeroOffset
    ++ [byteOf c.idxTol, byteOf c.lockRevs, byteOf c.slipLimit, byteOf c.revHyst]
    ++ leBytes 2 c.stallTime ++ [byteOf c.sense.code]

/-! ### SET_ADAPT, SET_PERMIT_CONFIG, SET_NOTICE_ENABLE (12.3) -/

/-- The parameter bytes of SET_ADAPT. -/
def adaptParams : Option AdaptParams → List Byte
  | none => []
  | some a => [a.gain, a.freeze]

/-- The parameter bytes of SET_PERMIT_CONFIG. -/
def permitParams : Option Half → List Byte
  | none => []
  | some q => leBytes 2 q.toNat

/-- The parameter bytes of SET_NOTICE_ENABLE. -/
def enableParams : Option Byte → List Byte
  | none => []
  | some e => [e]

/-! ### SET_PORT_CONFIG (12.3, 6.2) -/

/-- The parameter bytes of SET_PORT_CONFIG. -/
def portParams (port : Byte) : Option PortParams → List Byte
  | none => [port]
  | some c => [port] ++ leBytes 2 c.divisor.toNat
      ++ [c.fraction, c.stopBits, c.rto, c.errLimit, c.trigWidth] ++ leBytes 2 c.wakeTime.toNat

/-- The range check of SET_PORT_CONFIG (R105, 6.2). -/
def readPortParams (c : PortParams) : Option PortConfig :=
  if within 4 65535 c.divisor.toNat && within 0 15 c.fraction.toNat && within 1 2 c.stopBits.toNat
      && within 10 40 c.rto.toNat && within 0 15 c.errLimit.toNat && within 1 255 c.trigWidth.toNat
      && tenMillis 10 2550 c.wakeTime.toNat then
    some { divisor := c.divisor.toNat, fraction := c.fraction.toNat, stopBits := c.stopBits.toNat,
           rto := c.rto.toNat, errLimit := c.errLimit.toNat, trigWidth := c.trigWidth.toNat,
           wakeTime := c.wakeTime.toNat }
  else none

/-- The nine configuration bytes of a reply (12.3). -/
def PortConfig.bytes (c : PortConfig) : List Byte :=
  leBytes 2 c.divisor ++ [byteOf c.fraction, byteOf c.stopBits, byteOf c.rto, byteOf c.errLimit,
    byteOf c.trigWidth] ++ leBytes 2 c.wakeTime

/-! ### START_TEST (12.3, 10.1) -/

/-- The parameter bytes of START_TEST. -/
def testParams (port : Byte) (t : TestParams) : List Byte := [port, t.mode, t.b0, t.b1, t.b2, t.b3]

/-- The start of the generator: the fifteen bits before the first bit of the sequence, whose recurrence then
gives fifteen ones (R169, log 16). -/
def generatorStart : BitVec 15 := 0x2AAA

/-- A PATTERN test at its start (R168). -/
def Pattern.start (loop : Loop) (sending : List Byte) : Pattern where
  loop := loop
  phase := match loop with | .internal => .byte | .echo => .echoOn
  sending := sending
  bits := []
  sendTimer := .stopped
  generator := generatorStart
  register := 0
  filled := 0
  waiting := []
  blockBits := 0
  blockErrors := 0
  insert := false
  stopping := false
  echoTimer := .stopped

/-- The range check of START_TEST (R160, 10.1): the mode with its parameters, its timers stopped and nothing
on the line. -/
def readTest (t : TestParams) : Option TestMode :=
  match t.mode.toNat with
  | 1 =>
    match readLength t.b2 with
    | some len =>
      if within 1 1000 (ofLeBytes [t.b0, t.b1]) then some (.shot len (ofLeBytes [t.b0, t.b1]) .stopped) else none
    | none => none
  | 2 =>
    match readLength t.b3 with
    | some len =>
      if within 1 65535 (ofLeBytes [t.b0, t.b1]) && within 1 16 t.b2.toNat then
        some (.sweep len (ofLeBytes [t.b0, t.b1]) t.b2.toNat .waiting)
      else none
    | none => none
  | 3 =>
    match t.b0.toNat with
    | 0 => some (.pattern (Pattern.start .internal []))
    | 1 => some (.pattern (Pattern.start .echo []))
    | _ => none
  | _ => none

/-! ### SUBMIT_PASS (12.3, R45) -/

/-- The parameter bytes of SUBMIT_PASS. -/
def submitParams (r : SubmitParams) : List Byte :=
  [r.port, r.blade, r.direction] ++ leBytes 2 r.step.toNat ++ [r.limit, r.len, r.options]

/-- What the first check of R45 admits: port, direction, step, shot limit and L. -/
structure Submission where
  port : PortId
  dir : Direction
  step : Nat
  limit : Nat
  len : Nat
  deriving DecidableEq, Repr

/-- The first check of R45. -/
def readSubmission (r : SubmitParams) : Option Submission :=
  match readPort r.port, readDirection r.direction, readLength r.len with
  | some p, some d, some len =>
    if within 1 65535 r.step.toNat && within 0 Config.maxShots r.limit.toNat then
      some ⟨p, d, r.step.toNat, r.limit.toNat, len⟩
    else none
  | _, _, _ => none

/-- Seeded check of a submission's options. -/
def optionSeeded (b : Byte) : Bool := b.getLsbD 0

/-- Edge of a submission's options. -/
def optionEdge (b : Byte) : Bool := b.getLsbD 1

/-- Follow correction of a submission's options. -/
def optionFollow (b : Byte) : Bool := b.getLsbD 2

/-- The number of shot positions that fit in the window (R44). -/
def positionsThatFit (b : Blade) (step : Nat) : Nat := (b.close - b.start) / step + 1

/-- The shot count n of R44. -/
def shotCount (b : Blade) (step limit : Nat) : Nat :=
  if limit = 0 then positionsThatFit b step else min limit (positionsThatFit b step)

end Sys2Proof.Machine
end

