-- ==== Sys2Proof/Machine/Ops.lean ====
section
/-! DEFINITION. The named operations that every meaning is built from: access to ports, links and claims,
timers, notices, result queue accounting, look-ups, transactions, and the order of the four port units. -/

namespace Sys2Proof.Machine

/-- What a command answers. -/
abbrev Result := Host.Outcome State Fault Refusal

/-! ### Access -/

/-- Head port `p`. -/
def State.port (s : State) (p : PortId) : Port := s.ports.get p

/-- Replace head port `p`. -/
def State.setPort (s : State) (p : PortId) (x : Port) : State := { s with ports := s.ports.set p.val x p.isLt }

/-- Change head port `p`. -/
def State.modPort (s : State) (p : PortId) (f : Port → Port) : State := s.setPort p (f (s.port p))

/-- The interface of link `m`. -/
def State.link (s : State) (m : Master) : Link := s.links.get m

/-- Replace the interface of link `m`. -/
def State.setLink (s : State) (m : Master) (x : Link) : State := { s with links := s.links.set m.val x m.isLt }

/-- Change the interface of link `m`. -/
def State.modLink (s : State) (m : Master) (f : Link → Link) : State := s.setLink m (f (s.link m))

/-- Claim `c`. -/
def State.claim (s : State) (c : ClaimId) : Claim := s.claims.get c

/-- Replace claim `c`. -/
def State.setClaim (s : State) (c : ClaimId) (x : Claim) : State := { s with claims := s.claims.set c.val x c.isLt }

/-- Change the Angle Unit. -/
def State.modAngle (s : State) (f : AngleUnit → AngleUnit) : State := { s with angle := f s.angle }

/-- Change the Plan Store. -/
def State.modPlan (s : State) (f : PlanStore → PlanStore) : State := { s with plan := f s.plan }

/-- Change the Permit Unit. -/
def State.modPermit (s : State) (f : PermitUnit → PermitUnit) : State := { s with permit := f s.permit }

/-- The four ports, in order. -/
def allPorts : List PortId := [0, 1, 2, 3]

/-- The three masters, in order. -/
def allMasters : List Master := [0, 1, 2]

/-- The five claims, in order. -/
def allClaims : List ClaimId := [0, 1, 2, 3, 4]

/-- The 64 tags, in order. -/
def allTags : List Tag := List.finRange 64

/-- Apply `f` at every port, from port 0 to port 3. -/
def eachPort (f : PortId → State → State) (s : State) : State := allPorts.foldl (fun s p => f p s) s

/-! ### Timers, in reference periods -/

/-- A running timer. -/
def Timer.isRunning : Timer → Bool
  | .running _ => true
  | .stopped => false

/-- Whether a timer has run out: it stays so until its expiry is taken, or it is restarted or stopped first (log 4). -/
def Timer.isOut : Timer → Bool
  | .running 0 => true
  | .running (_ + 1) | .stopped => false

/-- A timer started with a time in milliseconds. -/
def startMillis (ms : Nat) : Timer := .running (ms * Config.periodsPerMilli)

/-- A timer started with a time in microseconds. -/
def startMicros (us : Nat) : Timer := .running (us * Config.periodsPerMicro)

/-- The bit time in sixteenths of a reference period: 16 · DIVISOR + FRACTION (R104). -/
def PortConfig.bitTime (c : PortConfig) : Nat := 16 * c.divisor + c.fraction

/-- Where the edge that ends the first `j` bits of a byte lies after the edge that begins its start bit, in whole
reference periods (R104, log 42). -/
def bitEdge (j bitTime : Nat) : Nat := j * bitTime / 16

/-- The time of one byte that the part sends, in whole reference periods: its start bit, its eight data bits and its stop
bits, from the edge that begins the first to the edge that ends the last (R104, log 42). -/
def byteTime (stopBits bitTime : Nat) : Nat := bitEdge (9 + stopBits) bitTime

/-- A timer started with the time of a number of bytes sent back to back (R104). -/
def PortConfig.sendFor (bytes : Nat) (c : PortConfig) : Timer := .running (bytes * byteTime c.stopBits c.bitTime)

/-- A timer started with a number of bit times, in whole reference periods (R104, log 31). -/
def startBits (bits bitTime : Nat) : Timer := .running (bitEdge bits bitTime)

/-- A time left in whole milliseconds; the rounding is a free value (log 6). -/
def millisLeft (left : Nat) : Nat :=
  left / Config.periodsPerMilli
    + (if left % Config.periodsPerMilli = 0 then 0 else if Config.roundsUp left then 1 else 0)

/-- One more on a count that stops at `top`. -/
def saturate (top x : Nat) : Nat := if x < top then x + 1 else top

/-! ### Notices and the attention line (11.5) -/

/-- Drive the attention line from the flags and enables (R184). -/
def Link.redrive (l : Link) : Link := { l with attention := (l.flags &&& l.enables) != 0 }

/-- Raise a notice on one link: set its flag and drive the line anew (R181, R184). -/
def Link.raise (l : Link) (n : Notice) : Link := ({ l with flags := l.flags ||| n.mask } : Link).redrive

/-- Raise a notice on a master. -/
def raise (n : Notice) (m : Master) (s : State) : State := s.modLink m (·.raise n)

/-- Raise a notice on all three masters. -/
def raiseAll (n : Notice) (s : State) : State := allMasters.foldl (fun s m => raise n m s) s

/-! ### Claims: who holds them (9.1) -/

/-- The holder of a claim, in HELD or in HANDOVER. -/
def Claim.holder? : Claim → Option Master
  | .free => none
  | .held m => some m
  | .handover m _ _ => some m

/-- The claimant of a claim. -/
def Claim.claimant? : Claim → Option Master
  | .handover _ n _ => some n
  | .free | .held _ => none

/-- Whether `m` is the plan claim holder (R156). -/
def State.holdsPlan (s : State) (m : Master) : Bool := (s.claim 0).holder? == some m

/-- The claim of port `p`. -/
def portClaim (p : PortId) : ClaimId := p.succ

/-- The controller of port `p`: the holder of its claim, if any (R157). -/
def State.controller (s : State) (p : PortId) : Option Master := (s.claim (portClaim p)).holder?

/-- Raise a notice on the controller of port `p`, or on no master when it has none (R157). -/
def raiseController (n : Notice) (p : PortId) (s : State) : State :=
  match s.controller p with
  | some m => raise n m s
  | none => s

/-! ### Result queues (4.5, 11.4) -/

/-- The records present (R77). -/
def Link.held (l : Link) : Nat := l.records.length

/-- Whether `n` more entries fit: held plus reserved plus n is at most 128 (R73, R77). -/
def Link.fits (l : Link) (n : Nat) : Bool := decide (l.held + l.reserved + n ≤ Config.resultSize)

/-- Reserve `n` entries of a master's result queue (R73). -/
def reserve (m : Master) (n : Nat) (s : State) : State :=
  s.modLink m fun l => { l with reserved := l.reserved + n }

/-- Release `n` reserved entries of a master's result queue (R80). -/
def releaseEntries (m : Master) (n : Nat) (s : State) : State :=
  s.modLink m fun l => { l with reserved := l.reserved - n }

/-- Write a record into an entry reserved for it: it joins the tail, held rises by 1 and reserved falls by 1,
and RESULT is raised; for a PASS_END record PASS_END is raised too (R179). -/
def writeRecord (m : Master) (r : Record) (s : State) : State :=
  let s := s.modLink m fun l => { l with records := l.records ++ [r], reserved := l.reserved - 1 }
  let s := raise .result m s
  match r with
  | .shot _ => s
  | .passEnd _ => raise .passEnd m s

/-! ### The blade table (2.1) -/

/-- The entry with a blade number (R25). -/
def PlanStore.find (ps : PlanStore) (number : Byte) : Option Blade := ps.blades.find? (·.number == number)

/-- The table position of a blade number, or FF (R24, R26). -/
def PlanStore.position (ps : PlanStore) (number : Byte) : Byte :=
  match ps.blades.findIdx? (·.number == number) with
  | some i => byteOf i
  | none => 0xFF

/-- The table order: ascending window start, then ascending blade number (R24). -/
def Blade.before (a b : Blade) : Bool :=
  decide (a.start < b.start) || (decide (a.start = b.start) && decide (a.number.toNat < b.number.toNat))

/-- Put an entry at the place its window start and blade number give it (R24). -/
def insertBlade (b : Blade) : List Blade → List Blade
  | [] => [b]
  | x :: rest => if b.before x then b :: x :: rest else x :: insertBlade b rest

/-- The table without the entry of a blade number. -/
def dropNumber (number : Byte) (blades : List Blade) : List Blade := blades.filter (·.number != number)

/-- Change the entry of a blade number, keeping its place. -/
def modBlade (number : Byte) (f : Blade → Blade) (s : State) : State :=
  s.modPlan fun ps => { ps with blades := ps.blades.map fun b => if b.number == number then f b else b }

/-! ### Passes (3.1, 3.2) -/

/-- The live pass with a tag in one port's queue. -/
def Port.findPass (q : Port) (t : Tag) : Option Pass := q.queue.find? (·.tag == t)

/-- The live pass with a tag on port `p`. -/
def State.findPass (s : State) (p : PortId) (t : Tag) : Option Pass := (s.port p).findPass t

/-- Change the record of the pass with a tag on port `p`. -/
def modPass (p : PortId) (t : Tag) (f : Pass → Pass) (s : State) : State :=
  s.modPort p fun q => { q with queue := q.queue.map fun x => if x.tag == t then f x else x }

/-- The port whose queue holds the pass with a tag. -/
def State.portOfTag (s : State) (t : Tag) : Option PortId :=
  allPorts.find? fun p => ((s.port p).findPass t).isSome

/-- Whether a tag is in the tag pool: no live pass holds it (R42). -/
def State.tagFree (s : State) (t : Tag) : Bool := (s.portOfTag t).isNone

/-- The lowest-numbered tag in the pool (R42). -/
def State.lowestTag (s : State) : Option Tag := allTags.find? s.tagFree

/-- The live passes of every port. -/
def State.livePasses (s : State) : List Pass := allPorts.flatMap fun p => (s.port p).queue

/-- A pass that waits on the table: PLANNED or OPEN (R18). -/
def Pass.onTable (x : Pass) : Bool := x.state == .planned || x.state == .opened

/-- Start or stop the stall timer by whether any pass is PLANNED or OPEN; a running one keeps running (R18). -/
def syncStall (s : State) : State :=
  if s.livePasses.any Pass.onTable then
    if s.angle.stall.isRunning then s
    else s.modAngle fun a => { a with stall := startMillis a.cfg.stallTime }
  else s.modAngle fun a => { a with stall := .stopped }

/-! ### The order of the four port units (log 7) -/

/-- Every way to insert `x` into a list. -/
def insertions {α : Type} (x : α) : List α → List (List α)
  | [] => [[x]]
  | y :: ys => (x :: y :: ys) :: (insertions x ys).map (y :: ·)

/-- Every order of a list. -/
def orders {α : Type} : List α → List (List α)
  | [] => [[]]
  | x :: xs => (orders xs).flatMap (insertions x)

/-- Take an event at the ports of a list, in that order. -/
def takeInOrder (f : PortId → State → State) (order : List PortId) (s : State) : State :=
  order.foldl (fun s p => f p s) s

/-- Whether an event can reach what the ports share through a port's units: it has a live pass, a plan entry, a running
test or an exchange in flight. -/
def Port.busy (q : Port) : Bool := !q.queue.isEmpty || !q.plan.isEmpty || q.test.isSome || q.exchange.isSome

/-- One event taken by the four port units, none of which waits for another (R73, R85, R137). Where every
order gives the same state, that state; where orders differ, one of them, by a free value (log 7). -/
def atPorts (f : PortId → State → State) (s : State) : State :=
  let busy := allPorts.filter fun p => (s.port p).busy
  let s := takeInOrder f (allPorts.filter fun p => !(s.port p).busy) s
  match orders busy with
  | [] => s
  | first :: others =>
    if others.all fun o => decide (takeInOrder f o s = takeInOrder f first s) then takeInOrder f first s
    else
      let chosen := (first :: others).getD (Config.freeOrder s.choices % (others.length + 1)) first
      { takeInOrder f chosen s with choices := s.choices + 1 }

/-! ### Transactions (11.2) -/

/-- What the owning block answers: status, reply data, and the state once the request has been acted on (R178). -/
structure Answer where
  status : Status
  data : List Byte
  state : State

/-- A refusal that carries no data and changes nothing (R189). -/
def refuse (status : Status) (s : State) : Answer := ⟨status, [], s⟩

/-- The request is complete: its reply is formed and the turnaround of two bytes begins (R175). -/
def Link.respond (l : Link) (frame reply : List Byte) : Link :=
  { l with phase := .turnaround, request := frame, turnaround := 2, reply := reply }

/-- One byte clocked by the master after the request: a turnaround byte, a reply byte shifted out, or nothing
in DONE (R175). -/
def Link.clockByte (l : Link) : Link :=
  match l.phase with
  | .turnaround =>
    if l.turnaround ≤ 1 then { l with phase := .reply, turnaround := 0 }
    else { l with turnaround := l.turnaround - 1 }
  | .reply =>
    match l.reply with
    | _ :: b :: rest => { l with reply := b :: rest }
    | [_] | [] => { l with phase := .done, reply := [] }
  | .idle | .request | .done => l

/-- The byte that the part shifts out on SDO while the master clocks the next byte: the front of the reply in
REPLY, 00 in the other phases of a select period (R175, 11.2), none in IDLE, where SDO is released (R174). A select
held since power-on leaves the interface in IDLE, and SDO is released then too: the model's choice, log 38. -/
def Link.output (l : Link) : Option Byte :=
  match l.phase with
  | .reply => some (l.reply.headD 0)
  | .request | .turnaround | .done => some 0
  | .idle => none

/-- `k` bytes clocked by the master after the request. -/
def Link.clockBytes : Nat → Link → Link
  | 0, l => l
  | k + 1, l => Link.clockBytes k l.clockByte

/-- A whole request frame arrives on link `m`. In REQUEST it is complete and answered (R175). After that, in
the same select period, its bytes only clock the turnaround and the reply, and no second request is taken
(R175). With the select deasserted no byte is taken. -/
def transact (m : Master) (frame : List Byte) (answer : State → Answer) (s : State) : State :=
  match (s.link m).phase with
  | .request =>
    let a := answer s
    a.state.modLink m (·.respond frame (replyFrame a.status a.data))
  | .turnaround | .reply | .done => s.modLink m (Link.clockBytes frame.length)
  | .idle => s

/-- The link's repeat prefix is read and cleared as a request is taken (R47). -/
def consumeRepeats (m : Master) (s : State) : State := s.modLink m fun l => { l with repeats := none }

/-- A request that passes R176: it consumes the link's repeat prefix and is acted on by its owning block (R178). -/
def request (m : Master) (code : Byte) (params : List Byte) (act : State → Answer) (s : State) : State :=
  transact m (requestFrame code params) (fun s => act (consumeRepeats m s)) s

/-- A request that R176 refuses: it is not taken, reaches no owning block and leaves the repeat prefix (R176). -/
def requestNotTaken (m : Master) (frame : List Byte) (status : Status) (s : State) : State :=
  transact m frame (refuse ((frameFault frame).getD status)) s

end Sys2Proof.Machine
end

