-- ==== Sys2Proof/Machine/PassOps.lean ====
section
/-! DEFINITION. Shared operations of the Pass Manager and the Edge Tracker: shot records and tallies, edge
observations and updates, revolution-end processing, the end of a pass, and failures (chapters 3 and 7). -/

namespace Sys2Proof.Machine

/-! ### Whose shot (3.4) -/

/-- Whether a shot is one of the live pass with tag `t`. A shot whose owner's link has been reset since it
fired belongs to no live pass (R117). -/
def Shot.isOf (sh : Shot) (t : Tag) : Bool := sh.kind == .pass && !sh.orphan && sh.tag == t

/-- Whether the exchange in flight on the port is for a shot of the pass with tag `t`. -/
def Port.inFlight (q : Port) (t : Tag) : Bool := q.exchange.any (·.shot.isOf t)

/-- Whether the pending slot holds a shot of the pass with tag `t`. -/
def Port.isPending (q : Port) (t : Tag) : Bool := q.slot.any (·.isOf t)

/-- Whether an exchange of the pass is outstanding: in flight or pending (3.4). -/
def Port.outstanding (q : Port) (t : Tag) : Bool := q.inFlight t || q.isPending t

/-! ### Edge observations (7.1) -/

/-- The edge offset of a return: data bytes 4 and 5, signed (12.5). -/
def ShotRecord.edgeOffset (r : ShotRecord) : Int := (r.dataByte 5 ++ r.dataByte 4 : BitVec 16).toInt

/-- Whether a record feeds an observation: no flag at all, EDGE set, HEAD_FAULT clear (R128). -/
def ShotRecord.feeds (r : ShotRecord) : Bool :=
  !r.flagged && statusEdge (r.dataByte 0) && !statusHeadFault (r.dataByte 0)

/-- The observation after a record has been looked at: the edge at the lowest shot index stays (R128). -/
def observe (r : ShotRecord) (o : Observation) : Observation :=
  match o with
  | .absent => .absent
  | .empty => if r.feeds then .held r.index.toNat r.angle r.edgeOffset else .empty
  | .held i a off =>
    if r.feeds && decide (r.index.toNat < i) then .held r.index.toNat r.angle r.edgeOffset else .held i a off

/-- The observation of a pass that has one, set EMPTY (R129). -/
def Observation.emptied : Observation → Observation
  | .absent => .absent
  | .empty | .held .. => .empty

/-! ### Shot records and tallies (R50, R117) -/

/-- The record of a shot with an ending and the data bytes kept (R117, R190). -/
def shotRecord (p : PortId) (sh : Shot) (ending : Ending) (data : List Byte) : ShotRecord where
  kind := sh.kind
  tag := sh.tag
  port := p
  blade := sh.blade
  index := sh.index
  revolution := sh.revolution.setWidth 16
  angle := sh.angle
  slip := sh.slip
  ending := ending
  data := data

/-- The tallies and the observation of a pass after one of its records is written (R50, R128). -/
def Pass.tally (r : ShotRecord) (x : Pass) : Pass :=
  { x with
    clean := if r.flagged then x.clean else x.clean + 1
    flagged := if r.flagged then x.flagged + 1 else x.flagged
    observation := observe r x.observation }

/-- Deliver the record of a shot to its owner, or discard it when the owner's link has been reset since the
shot fired (R117). A pass shot's record is counted in its pass. -/
def deliver (p : PortId) (sh : Shot) (ending : Ending) (data : List Byte) (s : State) : State :=
  if sh.orphan then s
  else
    let r := shotRecord p sh ending data
    let s := writeRecord sh.owner (.shot r) s
    match sh.kind with
    | .test => s
    | .pass => modPass p sh.tag (Pass.tally r) s

/-- Drop the shot in the pending slot, with an ABORTED record (R120). -/
def dropSlot (p : PortId) (s : State) : State :=
  match (s.port p).slot with
  | none => s
  | some sh => deliver p sh .aborted [] (s.modPort p fun q => { q with slot := none })

/-- Drop the pending shot if it is one of the pass with tag `t` (R54, R55). -/
def dropPendingOf (p : PortId) (t : Tag) (s : State) : State :=
  if (s.port p).isPending t then dropSlot p s else s

/-! ### Edge updates (7.2) -/

/-- The correction range (R23). -/
def clampCorrection (x : Int) : Int := if x < -2048 then -2048 else if 2047 < x then 2047 else x

/-- The measured edge angle of a HELD observation (R131): the offset term is rounded toward zero. -/
def measuredEdge (dir : Direction) (step angle : Nat) (offset : Int) : Int :=
  match dir with
  | .forward => angle + (offset * step).tdiv 256
  | .reverse => angle - (offset * step).tdiv 256

/-- One update of a blade's correction and of the pass's last edge update (R132, R133): the step is the error
shifted right by the gain, rounded toward minus infinity. -/
def edgeUpdate (p : PortId) (x : Pass) (b : Blade) (mark angle : Nat) (offset : Int) (s : State) : State :=
  let error := measuredEdge x.dir x.step angle offset - (mark + b.correction)
  let sum := b.correction + error / (2 ^ s.plan.gain : Nat)
  let corrected := clampCorrection sum
  let s := modBlade x.blade (fun b => { b with correction := corrected }) s
  modPass p x.tag (fun y =>
    { y with
      lastEdge := some ⟨error, corrected⟩
      flags := { y.flags with clamped := y.flags.clamped || decide (corrected ≠ sum) } }) s

/-- The Edge Tracker consulted at revolution-end processing (R130 to R134). -/
def consult (p : PortId) (x : Pass) (s : State) : State :=
  match s.plan.find x.blade with
  | none => s
  | some b =>
    if x.marks.slipped || x.marks.reversed || b.tracking == .fixed || s.plan.frozen
        || s.plan.state == .edit then s
    else
      match x.observation, b.mark with
      | .held _ angle offset, some mark => edgeUpdate p x b mark angle offset s
      | .held .., none => s
      | .empty, _ => modPass p x.tag (fun y => { y with flags := { y.flags with noEdge := true } }) s
      | .absent, _ => s

/-! ### The end of a pass (3.6) -/

/-- The pass-end record of a pass (R57). -/
def passEndRecord (p : PortId) (x : Pass) (outcome : PassOutcome) : PassEndRecord where
  tag := x.tag
  port := p
  blade := x.blade
  outcome := outcome
  revsDone := x.revsDone
  fired := x.fired
  clean := x.clean
  flags := x.flags
  lastEdge := x.lastEdge

/-- Whether an outcome raises the blade's passes completed count (R35). -/
def PassOutcome.completes : PassOutcome → Bool
  | .complete | .flagged => true
  | .aborted | .failed _ => false

/-- The passes completed count rises by 1, stopping at 65,535 (R35). -/
def countCompleted (number : Byte) (s : State) : State :=
  modBlade number (fun b => { b with completed := saturate 65535 b.completed }) s

/-- A pass ends in one step (R56): its pass-end record is written, the blade's count rises if due, and the
pass leaves its queue, which frees its tag (R42). -/
def endPass (p : PortId) (t : Tag) (outcome : PassOutcome) (s : State) : State :=
  match s.findPass p t with
  | none => s
  | some x =>
    let s := writeRecord x.owner (.passEnd (passEndRecord p x outcome)) s
    let s := if outcome.completes then countCompleted x.blade s else s
    s.modPort p fun q => { q with queue := q.queue.filter (·.tag != t) }

/-- The outcome of a pass that ends with all repeats counted (R52). -/
def Pass.finalOutcome (x : Pass) : PassOutcome :=
  if x.flagged = 0 ∧ x.flags.reversed = false ∧ x.flags.slipped = false ∧ x.flags.skipped = false then .complete
  else .flagged

/-- Back to QUEUED in its place, revolution marks cleared (R48, R51). -/
def Pass.requeued (x : Pass) : Pass := { x with state := .queued, marks := Marks.none }

/-- Revolution-end processing (R51). -/
def revolutionEnd (p : PortId) (t : Tag) (s : State) : State :=
  let s := modPass p t (fun x => { x with revsDone := x.revsDone + 1 }) s
  match s.findPass p t with
  | none => s
  | some x =>
    let s := if x.edge then consult p x s else s
    match s.findPass p t with
    | none => s
    | some x => if x.revsDone < x.repeats then modPass p t Pass.requeued s else endPass p t x.finalOutcome s

/-- A DRAINING pass with no exchange outstanding ends with its pending outcome, or goes to revolution-end
processing when it has none (R49, R54). -/
def settleDraining (p : PortId) (t : Tag) (s : State) : State :=
  match s.findPass p t with
  | none => s
  | some x =>
    if x.state == .draining && !(s.port p).outstanding t then
      match x.pendingOutcome with
      | some o => endPass p t o s
      | none => revolutionEnd p t s
    else s

/-! ### Leaving the plan (4.4) -/

/-- The plan entry of a pass. -/
def Port.findEntry (q : Port) (t : Tag) : Option PlanEntry := q.plan.find? (·.tag == t)

/-- Discard a pass's plan entry and release the entries of its unfired shots in the owner's result queue
(R79, R95, R101). -/
def leavePlan (p : PortId) (t : Tag) (s : State) : State :=
  match s.findPass p t, (s.port p).findEntry t with
  | some x, some e =>
    (releaseEntries x.owner (e.n - e.fired) s).modPort p fun q => { q with plan := q.plan.filter (·.tag != t) }
  | _, _ => s

/-- Close the pass revolution of an OPEN pass: it leaves the plan, and drains or goes to revolution-end
processing (R49, R95 to R97). -/
def closeRevolution (p : PortId) (t : Tag) (s : State) : State :=
  let s := leavePlan p t s
  let s := modPass p t (fun x => { x with state := .draining }) s
  settleDraining p t s

/-! ### Failures and aborts (3.5) -/

/-- Wait for the exchange in flight with the outcome pending, or end at once when none is (R54). -/
def endOrDrain (p : PortId) (t : Tag) (outcome : PassOutcome) (s : State) : State :=
  if (s.port p).inFlight t then
    modPass p t (fun x => { x with state := .draining, pendingOutcome := some outcome }) s
  else endPass p t outcome s

/-- A failure or an abort reaches a live pass (R54, R55). -/
def failPass (p : PortId) (t : Tag) (outcome : PassOutcome) (s : State) : State :=
  match s.findPass p t with
  | none => s
  | some x =>
    match x.pendingOutcome with
    | some _ => dropPendingOf p t s
    | none =>
      match x.state with
      | .queued => endPass p t outcome s
      | .planned => endPass p t outcome (leavePlan p t s)
      | .opened => endOrDrain p t outcome (dropPendingOf p t (leavePlan p t s))
      | .draining => endOrDrain p t outcome (dropPendingOf p t s)

/-- One delivery to the passes of one port that it reaches, in queue order (R53). -/
def failPort (reached : Pass → Bool) (outcome : PassOutcome) (p : PortId) (s : State) : State :=
  (((s.port p).queue.filter reached).map Pass.tag).foldl (fun s t => failPass p t outcome s) s

/-- One delivery to the passes it reaches, port by port from port 0 to port 3 and in queue order (R53). -/
def failPasses (reached : Pass → Bool) (reason : Reason) (s : State) : State :=
  eachPort (failPort reached (.failed reason)) s

end Sys2Proof.Machine
end

