-- ==== Sys2Proof/Machine/HeadOps.lean ====
section
/-! DEFINITION. Shared operations of the Head Link Controllers and the port test modes: exchanges, the pending
slot, the end of a test, FAULT and OFF, received bytes, and the pattern generator and checker (chapters 6 and
10). -/

namespace Sys2Proof.Machine

/-! ### Bits on the line (R104) -/

/-- The byte whose data bits, least significant first, are given. -/
def byteOfBits : List Bool → Byte
  | [] => 0
  | b :: rest => (byteOfBits rest <<< 1) ||| (if b then 1 else 0)

/-- The data bits of a byte, least significant first (R169). -/
def bitsOfByte (b : Byte) : List Bool := (List.range 8).map b.getLsbD

/-- The levels of a byte on the line, bit by bit: the start bit low, the eight data bits, and the level of its stop bit
(6.2). -/
def byteLevels (b : Byte) (stop : Bool) : List Bool := false :: bitsOfByte b ++ [stop]

/-- The bit between whose edges (`bitEdge`) reference period `t` lies, counted from the edge that begins the byte (R104). -/
def bitAt (bitTime t : Nat) : Nat := (16 * t + 15) / bitTime

/-- The level of the line in reference period `t` after the edge that begins a byte: that of its bit, and high after the
last (R104). -/
def levelAt (levels : List Bool) (bitTime t : Nat) : Bool := levels.getD (bitAt bitTime t) true

/-- How many of the eight data bits of a byte have begun in reference period `t` after the edge that begins its start bit
(R104). -/
def bitsBegun (bitTime t : Nat) : Nat := min 8 (bitAt bitTime t)

/-- The middle of bit `j`, in whole reference periods after the edge that begins the start bit; that of bit 0 is half a
bit time after it (R104, log 42). -/
def bitMiddle (j bitTime : Nat) : Nat := (2 * j + 1) * bitTime / 32

/-- Whether the part drives the line low in the next reference period, with `timer` left of the time of the bytes it
sends back to back: in their start bits and zero data bits (6.2, R104). -/
def sendsLow (bytes : List Byte) (stopBits bitTime : Nat) : Timer → Bool
  | .stopped => false
  | .running left =>
    let gone := bytes.length * byteTime stopBits bitTime - left
    match bytes[gone / byteTime stopBits bitTime]? with
    | none => false
    | some b => !levelAt (byteLevels b true) bitTime (gone % byteTime stopBits bitTime)

/-- What the receiver makes of a fall of a released line (R104): a glitch, which is no byte, or a byte, well formed or
lacking its stop bit. -/
inductive Reception where
  | glitch
  | byte (b : Byte) (wellFormed : Bool)
  deriving DecidableEq, Repr

/-- The samples that the receiver takes after a fall of the line: half a bit time later, in the middle of each data bit
and in the middle of one stop bit, whatever STOP_BITS says (R104). -/
def samplesOf (bitTime : Nat) (level : Nat → Bool) : List Bool :=
  (List.range 10).map fun j => level (bitMiddle j bitTime)

/-- What the ten samples say (R104). -/
def Reception.ofSamples : List Bool → Reception
  | false :: rest => .byte (byteOfBits (rest.take 8)) (rest.getD 8 true)
  | _ => .glitch

/-! ### Exchanges (6.4) -/

/-- Start the exchange of a shot: its tag frame goes out in phase SENDING at the settings in force (R113). -/
def startExchange (p : PortId) (sh : Shot) (s : State) : State :=
  s.modPort p fun q =>
    { q with
      exchange := some
        { shot := sh, frame := sh.frame, sendTimer := q.cfg.sendFor sh.frame.length, phase := .sending,
          received := [], timer := .stopped, bitTime := q.cfg.bitTime, stopBits := q.cfg.stopBits, rto := q.cfg.rto } }

/-- A fired shot is handed to the Head Link Controller: it starts an exchange, becomes the pending shot, or
gets an OVERRUN record at once (R100, R119). -/
def handOff (p : PortId) (sh : Shot) (s : State) : State :=
  match (s.port p).exchange with
  | none => startExchange p sh s
  | some _ =>
    match (s.port p).slot with
    | none => s.modPort p fun q => { q with slot := some sh }
    | some _ => deliver p sh .overrun [] s

/-! ### The end of a test (10.4, 10.5) -/

/-- Whether a mode fires test shots: SHOT or SWEEP. -/
def TestMode.fires : TestMode → Bool
  | .shot .. | .sweep .. => true
  | .pattern _ => false

/-- Whether a mode is SWEEP. -/
def TestMode.isSweep : TestMode → Bool
  | .sweep .. => true
  | .shot .. | .pattern _ => false

/-- A test ends: a test shot in the pending slot is dropped with an ABORTED record, the mode becomes NONE, the
port takes its state after the ending, and TEST_END goes to the controller (R166, R172). A PATTERN test has no
pending shot. -/
def endTest (p : PortId) (after : PortState) (s : State) : State :=
  let s := dropSlot p s
  let s := s.modPort p fun q => { q with test := none, state := after }
  raiseController .testEnd p s

/-- End the test of a port in TEST whose mode the given test selects; the port becomes READY. -/
def endTestIf (which : TestMode → Bool) (p : PortId) (s : State) : State :=
  match (s.port p).test with
  | some t => if which t.mode then endTest p .ready s else s
  | none => s

/-! ### FAULT (6.3, R112) -/

/-- End the exchange in flight without going on: its record is delivered or discarded, and the Pass Manager
acts on the pass (R117). Nothing happens when none is in flight. A DRAINING pass with no pending outcome whose last
exchange ends here goes to revolution-end processing (R49, R117) before what is left of the port's passes fails
(R110, R112): the model's choice, log 36. -/
def cutExchange (p : PortId) (ending : Ending) (s : State) : State :=
  match (s.port p).exchange with
  | none => s
  | some ex =>
    let s := s.modPort p fun q => { q with exchange := none }
    let s := deliver p ex.shot ending [] s
    if ex.shot.kind == .pass && !ex.shot.orphan then settleDraining p ex.shot.tag s else s

/-- A STUCK ending raises the link error count of the exchange it ends (R118, step 1). -/
def countStuck (q : Port) : Port :=
  if q.exchange.isSome then { q with linkErrors := saturate 255 q.linkErrors } else q

/-- The port enters FAULT (R112). -/
def enterFault (p : PortId) (reason : FaultReason) (s : State) : State :=
  let s := s.modPort p fun q =>
    { q with
      fault := reason, state := .fault, wakePulse := .stopped, wake := .stopped, wakeBytes := [], lowRun := 0,
      bitLeft := 0 }
  let s := if reason == .stuck then cutExchange p .stuck (s.modPort p countStuck) else s
  let s := if (s.port p).test.isSome then endTest p .fault s else s
  let s := failPort (fun _ => true) (.failed .linkFault) p s
  raiseController .portFault p s

/-! ### The end of an exchange (R117, R118) -/

/-- The error counts after an ending (R118, step 1). -/
def Port.countEnding (ending : Ending) (q : Port) : Port :=
  if ending.errored then
    { q with consecutive := saturate 255 q.consecutive, linkErrors := saturate 255 q.linkErrors }
  else
    match ending with
    | .clean => { q with consecutive := 0 }
    | _ => q

/-- After the record: the counts, then FAULT with reason ERRORS, or the pending shot's exchange, or none
(R118). -/
def goOn (p : PortId) (ending : Ending) (s : State) : State :=
  let s := s.modPort p (Port.countEnding ending)
  let q := s.port p
  if ending.errored && decide (q.cfg.errLimit ≠ 0) && decide (q.cfg.errLimit ≤ q.consecutive) then
    enterFault p .errors s
  else
    match q.slot with
    | some sh => startExchange p sh (s.modPort p fun q => { q with slot := none })
    | none => s

/-- The exchange in flight ends by itself (R117, R118): the record is delivered or discarded, the Pass Manager
acts on the pass, and the controller goes on. -/
def endExchange (p : PortId) (ending : Ending) (data : List Byte) (s : State) : State :=
  match (s.port p).exchange with
  | none => s
  | some ex =>
    let s := s.modPort p fun q => { q with exchange := none }
    let s := deliver p ex.shot ending data s
    let s := if ex.shot.kind == .pass && !ex.shot.orphan then settleDraining p ex.shot.tag s else s
    goOn p ending s

/-! ### OFF (R109, R110) and the wake (R107) -/

/-- What entering OFF does to the port (R109). -/
def Port.turnedOff (q : Port) : Port :=
  { q with
    state := .off, fault := .none, consecutive := 0, linkErrors := 0, lowRun := 0, bitLeft := 0,
    wakePulse := .stopped, wake := .stopped, wakeBytes := [] }

/-- A wake starts: the wake pulse of 16 bit times is driven and the port becomes WAKING (R107). -/
def Port.startWake (q : Port) : Port :=
  { q with
    state := .waking, wakePulse := startBits 16 q.cfg.bitTime, wake := .stopped, wakeBytes := [], lowRun := 0,
    bitLeft := 0 }

/-! ### The pattern generator (R169, R171) -/

/-- Bit of the exclusive-or of the bits 15 and 14 places back. -/
def lfsrBit (reg : BitVec 15) : Bool := reg.getLsbD 14 ^^ reg.getLsbD 13

/-- Shift a bit into a 15-bit register. -/
def shiftIn (reg : BitVec 15) (b : Bool) : BitVec 15 := (reg <<< 1) ||| (if b then 1 else 0)

/-- The generator sends its next data bit, inverted when an insertion is pending (R169, R171). -/
def Pattern.sendBit (t : Pattern) : Bool × Pattern :=
  let b := lfsrBit t.generator
  (b ^^ t.insert, { t with generator := shiftIn t.generator b, insert := false })

/-- The next `k` data bits sent, first one first. -/
def Pattern.sendBits : Nat → Pattern → List Bool × Pattern
  | 0, t => ([], t)
  | k + 1, t =>
    let (b, t) := t.sendBit
    let (bs, t) := Pattern.sendBits k t
    (b :: bs, t)

/-- A PATTERN test begins to send a number of bytes, no data bit of a pattern byte sent yet (R104, R168, R169). -/
def Pattern.send (c : PortConfig) (bytes : Nat) (t : Pattern) : Pattern :=
  { t with bits := [], sendTimer := c.sendFor bytes }

/-- The generator sends the data bits of the byte under way that have begun and are not sent yet (R169, R171): each bit
leaves as its bit time begins, so that an insertion inverts the next one to leave (log 15). -/
def Pattern.sendDue (c : PortConfig) (t : Pattern) : Pattern :=
  match t.phase, t.sendTimer with
  | .byte, .running left =>
    let gone := byteTime c.stopBits c.bitTime - left
    let (bits, t) := t.sendBits (bitsBegun c.bitTime gone - t.bits.length)
    { t with bits := t.bits ++ bits }
  | _, _ => t

/-! ### The low run (R121) -/

/-- The bytes that a PATTERN test puts on the line in its phase: a frame, or the byte under way, of which only the bits that
have begun count (log 15); none with the INTERNAL loop or while an echo is awaited (R168, R169). -/
def Pattern.onLine (t : Pattern) : List Byte :=
  match t.loop, t.phase with
  | .echo, .echoOn | .echo, .echoOff => t.sending
  | .echo, .byte => [byteOfBits t.bits]
  | .internal, _ | .echo, .echo => []

/-- Whether a PATTERN test drives the line low in the next reference period. -/
def TestMode.sendsLow (c : PortConfig) : TestMode → Bool
  | .pattern pt => Machine.sendsLow pt.onLine c.stopBits c.bitTime pt.sendTimer
  | .shot .. | .sweep .. => false

/-- Whether the part drives HLp low in the next reference period: in the wake pulse (R107) and in the low bits of the
bytes it sends (6.2, R104). Else it releases the line, and the head may pull it low. -/
def Port.drivesLow (q : Port) : Bool :=
  (q.wakePulse.isRunning && !q.wakePulse.isOut)
    || (q.exchange.any fun ex => Machine.sendsLow ex.frame ex.stopBits ex.bitTime ex.sendTimer)
    || q.test.any fun t => t.mode.sendsLow q.cfg

/-- Whether the line is watched for a low run: WAKING after the wake pulse, READY and TEST (R121). -/
def Port.watched (q : Port) : Bool :=
  match q.state with
  | .waking => !q.wakePulse.isRunning
  | .ready | .test => true
  | .off | .fault => false

/-- The low run after one more bit time: it rises by 1 when the line is low and returns to 0 when it is high (R121). -/
def lowRunAfter (low : Bool) (run : Nat) : Nat := if low then run + 1 else 0

/-- The line is seen high, so the low run returns to 0 (R121). -/
def Port.seenHigh (q : Port) : Port := { q with lowRun := 0 }

/-- The line was seen high no more than `n` bit times ago, so the low run is no longer than that (R121). -/
def Port.highWithin (n : Nat) (q : Port) : Port := { q with lowRun := min n q.lowRun }

/-- A watched line is seen low for `n` more bit times without a break (R121). -/
def Port.seenLow (n : Nat) (q : Port) : Port := if q.watched then { q with lowRun := q.lowRun + n } else q

/-- Whether a watched line is stuck: its low run has reached 64 (R121). -/
def Port.isStuck (q : Port) : Bool := q.watched && decide (64 ≤ q.lowRun)

/-- A port whose line is stuck enters FAULT with reason STUCK (R121, R112). -/
def faultIfStuck (p : PortId) (s : State) : State := if (s.port p).isStuck then enterFault p .stuck s else s

/-- One reference period, of sixteen sixteenths, passes on a line whose bit time has `left` sixteenths left: what is
left after it, and whether the bit time ends. The part of a period over goes to the next bit time, so that the bit times
end at the edges of R104; the next one takes the bit time then in force (R106). -/
def passPeriod (bitTime left : Nat) : Nat × Bool :=
  let left := (if left = 0 then bitTime else left) - 16
  if left < 16 then (left + bitTime, true) else (left, false)

/-- One reference period passes on the watch of the line, which is low or high in a bit time that ends (R121). -/
def Port.watchLine (low : Bool) (q : Port) : Port :=
  if q.watched then
    let (left, ends) := passPeriod q.cfg.bitTime q.bitLeft
    { q with bitLeft := left, lowRun := if ends then lowRunAfter low q.lowRun else q.lowRun }
  else q

/-! ### Received bytes (R108, R116, R122) -/

/-- The phase of the exchange in flight on a port. -/
def Port.phase? (q : Port) : Option ExchangePhase := q.exchange.map Exchange.phase

/-- Whether a test on the port is a PATTERN test. -/
def Port.inPattern (q : Port) : Bool := q.test.any fun t => !t.mode.fires

/-- A stray byte raises the link error count, in READY and in TEST but not in a PATTERN test (R122). It began with a fall
of the line from high (R104), and its start bit, data bits and stop bit are ten bit times (R121). -/
def Port.stray (q : Port) : Port :=
  if (q.state == .ready || q.state == .test) && !q.inPattern && q.exchange.isNone then
    { q.highWithin 10 with linkErrors := saturate 255 q.linkErrors }
  else q

/-- Whether three bytes are a ready return: READY set and the check over two data bytes correct (R108). -/
def isReadyReturn : List Byte → Bool
  | [b0, b1, check] => statusReady b0 && headCheck 0 [b0, b1] == check
  | _ => false

/-- The last three well-formed bytes after one more. -/
def lastThree (bytes : List Byte) (b : Byte) : List Byte := (bytes ++ [b]).drop ((bytes ++ [b]).length - 3)

/-- The return is complete: check, then echo, then the exchange ends CRC, SEQ or clean (R116). -/
def returnComplete (p : PortId) (ex : Exchange) (s : State) : State :=
  let data := ex.received.take ex.shot.len
  if headCheck ex.shot.returnSeed data ≠ ex.received.getD ex.shot.len 0 then endExchange p .crc [] s
  else if data.getD 1 0 ≠ ex.shot.index then endExchange p .seq data s
  else endExchange p .clean data s

/-- One well-formed byte received on the line, whose stop bit is high and ends a low run (R121): in WAKING it may complete a ready return (R108); while a return
is awaited it is kept, and the (L + 1)th completes it (R115, R116); while the part sends it is a read-back
sample; otherwise it is a stray (R122). -/
def receiveByte (p : PortId) (s : State) (b : Byte) : State :=
  let q := s.port p
  match q.state with
  | .waking =>
    if q.wakePulse.isRunning then s
    else if isReadyReturn (lastThree q.wakeBytes b) then
      s.modPort p fun q => { q with state := .ready, wake := .stopped, wakeBytes := [], lowRun := 0 }
    else s.modPort p fun q => { q.seenHigh with wakeBytes := lastThree q.wakeBytes b }
  | .ready | .test =>
    let s := s.modPort p Port.seenHigh
    match q.exchange with
    | none => s.modPort p Port.stray
    | some ex =>
      match ex.phase with
      | .sending => s
      | .awaiting =>
        let ex := { ex with received := ex.received ++ [b] }
        let s := s.modPort p fun q => { q with exchange := some ex }
        if ex.received.length ≤ ex.shot.len then s else returnComplete p ex s
  | .off | .fault => s

/-- A byte that lacks its stop bit: it ends an awaited return as FRAME (R115); when none is awaited and the part is not
sending, it is a stray (R122). It began with a fall of the line from high (R104). -/
def receiveUnframed (p : PortId) (s : State) : State :=
  let s := s.modPort p (Port.highWithin 10)
  if (s.port p).phase? = some .awaiting then endExchange p .frame [] s else s.modPort p Port.stray

/-- What the receiver took from the line (R104): a glitch changes nothing (R122). -/
def receive (p : PortId) (s : State) : Reception → State
  | .glitch => s
  | .byte b true => receiveByte p s b
  | .byte _ false => receiveUnframed p s

/-- Bytes with their stop bits received one after another, each read from its levels on the line (R104). -/
def receiveBytes (p : PortId) (bytes : List Byte) (s : State) : State :=
  bytes.foldl (fun s b => receive p s (Reception.ofSamples (byteLevels b true))) s

/-! ### The pattern checker (R170) -/

/-- The checker takes one bit (R170): until it has held 15 it only shifts; then it compares with the predicted
bit, and shifts in the received bit in HUNTING and the predicted one in SYNCED. -/
def checkBit (checker : CheckerState) (errors : Nat) (t : Pattern) (b : Bool) : Nat × Pattern :=
  if t.filled < 15 then (errors, { t with register := shiftIn t.register b, filled := t.filled + 1 })
  else
    let predicted := lfsrBit t.register
    let wrong := b != predicted
    (if wrong && checker == .synced then saturate 65535 errors else errors,
      { t with
        register := shiftIn t.register (match checker with | .hunting => b | .synced => predicted)
        blockBits := t.blockBits + 1
        blockErrors := if wrong then t.blockErrors + 1 else t.blockErrors })

/-- The checker takes received bits in order until its block holds 64 bits and waits to be judged; the rest
wait (R170, log 14). -/
def checkBits (checker : CheckerState) : List Bool → Nat × Pattern → Nat × Pattern
  | [], (errors, t) => (errors, { t with waiting := [] })
  | b :: rest, (errors, t) =>
    if t.blockBits < 64 then checkBits checker rest (checkBit checker errors t b)
    else (errors, { t with waiting := b :: rest })

/-- How many low bit times a received byte can end with, its stop bit among them, whether or not it has it: they come
after the last of its 1 bits, or after the high from which the line falls to its start bit (R104, R169). -/
def lowTail (b : Byte) : Nat := (((false :: bitsOfByte b).reverse).takeWhile (!·)).length + 1

/-- The port with its PATTERN test and its pattern error count replaced. -/
def Port.withPattern (q : Port) (t : Test) (r : Nat × Pattern) : Port :=
  { q with patternErrors := r.1, test := some { t with mode := .pattern r.2 } }

/-- Bits received by the checker of a PATTERN test; none is compared once stopping is set (R170, R172). -/
def Port.feedChecker (bits : List Bool) (t : Test) (pt : Pattern) (q : Port) : Port :=
  if pt.stopping then q.withPattern t (q.patternErrors, pt)
  else q.withPattern t (checkBits q.checker (pt.waiting ++ bits) (q.patternErrors, pt))

/-- The frame that turns a head's echo on or off: kind, port number, index 00, the low byte of the revolution
number, and the check (R168, R172). -/
def echoFrame (kind : TagKind) (p : PortId) (s : State) : List Byte := tagFrame kind p.val 0 s.angle.revolution

/-- An echo has come, or is missing: its bits go to the checker and the next pattern byte starts; once
stopping, the ECHO_OFF frame starts instead (R169, R172). -/
def echoDone (p : PortId) (bits : List Bool) (s : State) : State :=
  match (s.port p).test with
  | some t =>
    match t.mode with
    | .pattern pt =>
      if pt.phase == .echo then
        let pt :=
          if pt.stopping then
            ({ pt with phase := .echoOff, sending := echoFrame .echoOff p s, echoTimer := .stopped } : Pattern).send
              (s.port p).cfg 4
          else ({ pt with phase := .byte, echoTimer := .stopped } : Pattern).send (s.port p).cfg 1
        s.modPort p (Port.feedChecker bits t pt)
      else s
    | .shot .. | .sweep .. => s
  | none => s

/-- STOP_TEST or SCAN_RESET of a PATTERN test with the ECHO loop: stopping is set, the checker stops comparing,
and the ECHO_OFF frame follows (R172). Taken again it changes nothing. -/
def Pattern.stopped (t : Pattern) : Pattern := { t with stopping := true, waiting := [] }

/-- Stop a running test: SHOT, SWEEP and the INTERNAL loop end at once, the ECHO loop sets stopping (R161,
R166, R172). -/
def stopTest (p : PortId) (s : State) : State :=
  match (s.port p).test with
  | some t =>
    match t.mode with
    | .shot .. | .sweep .. => endTest p .ready s
    | .pattern pt =>
      match pt.loop with
      | .internal => endTest p .ready s
      | .echo => s.modPort p fun q => { q with test := some { t with mode := .pattern pt.stopped } }
  | none => s

end Sys2Proof.Machine
end

