-- ==== Sys2Proof/Machine/Clock.lean ====
section
/-! DEFINITION. The passing of time: one period of the 40 MHz reference, in which every running timer counts
down and the low run of every watched line is kept (log 3). What a timer does when it has run out is a command of its
own; a line that is stuck faults its port within the period. -/

namespace Sys2Proof.Machine

/-- One period passes on a timer. -/
def Timer.tick : Timer → Timer
  | .stopped => .stopped
  | .running left => .running (left - 1)

/-- One period passes on a claim's handover timer. -/
def Claim.tick : Claim → Claim
  | .free => .free
  | .held m => .held m
  | .handover m n left => .handover m n (left - 1)

/-- One period passes on a test's timers, and on the byte that a PATTERN test sends (R169). -/
def TestMode.tick (c : PortConfig) : TestMode → TestMode
  | .shot len interval timer => .shot len interval timer.tick
  | .sweep len step revs ph => .sweep len step revs ph
  | .pattern pt =>
    .pattern (({ pt with sendTimer := pt.sendTimer.tick, echoTimer := pt.echoTimer.tick } : Pattern).sendDue c)

/-- One period passes on a port's timers, and on the pattern byte that it sends. -/
def Port.tickTimers (q : Port) : Port :=
  { q with
    exchange := q.exchange.map fun ex => { ex with sendTimer := ex.sendTimer.tick, timer := ex.timer.tick }
    wakePulse := q.wakePulse.tick
    wake := q.wake.tick
    pulse := q.pulse.tick
    test := q.test.map fun t => { t with mode := t.mode.tick q.cfg } }

/-- One period passes on a port: on the watch of its line, which is low in a bit time that ends where the part drives it
low or the head does (`pulled`; 6.2, R121), and on its timers. -/
def Port.tick (pulled : Bool) (q : Port) : Port := (q.watchLine (q.drivesLow || pulled)).tickTimers

/-- One reference period passes on every unit. Whether the head pulls a line low in a bit time that ends is a free value (log 17). -/
def passTime (s : State) : State :=
  { s with
    angle := { s.angle with stall := s.angle.stall.tick }
    ports := Vector.ofFn fun p : PortId => (s.port p).tick (Config.lineLow s.choices p.val)
    permit := { s.permit with timer := s.permit.timer.tick }
    claims := s.claims.map Claim.tick
    choices := s.choices + 1 }

/-- One reference period passes, and every port whose low run reaches 64 in it enters FAULT at once (R121). -/
def tick (s : State) : State :=
  let s := passTime s
  if allPorts.any fun p => (s.port p).isStuck then syncStall (atPorts faultIfStuck s) else s

end Sys2Proof.Machine
end

