-- ==== Sys2Proof/Machine/TriggerOps.lean ====
section
/-! DEFINITION. Shared operations of the Trigger Units and of SHOT and SWEEP tests at a port: opening, firing,
skipping, closing, test shots (chapters 5 and 10.3). -/

namespace Sys2Proof.Machine

/-! ### The angle (R5) -/

/-- The index travel: position count less index reference (R5). -/
def AngleUnit.travel (a : AngleUnit) : Int := a.position - a.reference

/-- The angle in 0..CPR−1, and 0 while NO_INDEX (R5). -/
def AngleUnit.value (a : AngleUnit) : Nat :=
  match a.lock with
  | .noIndex => 0
  | .seeking | .locked => ((a.travel - a.cfg.zeroOffset) % (a.cfg.cpr : Int)).toNat

/-! ### Shot positions (R71, R84) -/

/-- The position of shot `k` of a plan entry (R71). -/
def PlanEntry.position (e : PlanEntry) (k : Nat) : Nat :=
  match e.dir with
  | .forward => e.first + k * e.step
  | .reverse => e.last - k * e.step

/-- How many shots of a plan entry, the lowest-indexed ones, lie at or behind an angle (R84). -/
def PlanEntry.behind (e : PlanEntry) (angle : Nat) : Nat :=
  match e.dir with
  | .forward => if angle < e.first then 0 else min e.n ((angle - e.first) / e.step + 1)
  | .reverse => if e.last < angle then 0 else min e.n ((e.last - angle) / e.step + 1)

/-- Whether an angle lies within the extent (R87). -/
def PlanEntry.holds (e : PlanEntry) (angle : Nat) : Bool := within e.first e.last angle

/-- Change the plan entry of a pass. -/
def modEntry (p : PortId) (t : Tag) (f : PlanEntry → PlanEntry) (s : State) : State :=
  s.modPort p fun q => { q with plan := q.plan.map fun e => if e.tag == t then f e else e }

/-- Whether the pass of a plan entry is in a state. -/
def Port.entryIn (q : Port) (st : PassState) (e : PlanEntry) : Bool := (q.findPass e.tag).any (·.state == st)

/-- The plan entry of the port's OPEN pass. -/
def Port.openEntry (q : Port) : Option PlanEntry := q.plan.find? (q.entryIn .opened)

/-! ### The trigger line (R98) -/

/-- Drive the trigger line ACTIVE and start the pulse timer with TRIG_WIDTH (R98). -/
def Port.drive (q : Port) : Port := { q with trigger := true, pulse := startMicros q.cfg.trigWidth }

/-- The line INACTIVE and the pulse timer stopped (R98, R99). -/
def Port.release (q : Port) : Port := { q with trigger := false, pulse := .stopped }

/-! ### Firing (R88 to R90) -/

/-- Set the SLIPPED mark and the SLIPPED flag of a pass (R90, R91). -/
def Pass.slipSeen (x : Pass) : Pass :=
  { x with marks := { x.marks with slipped := true }, flags := { x.flags with slipped := true } }

/-- Set the SKIPPED mark and flag of a pass (R92). -/
def Pass.skipSeen (x : Pass) : Pass :=
  { x with marks := { x.marks with skipped := true }, flags := { x.flags with skipped := true } }

/-- The shot description of the next shot of a pass, stamped now (R89, R90, R100). -/
def passShot (s : State) (x : Pass) (e : PlanEntry) : Shot where
  kind := .pass
  tag := x.tag
  owner := x.owner
  blade := x.blade
  index := byteOf e.next
  angle := s.angle.value
  revolution := s.angle.revolution
  slip := s.angle.suspect || x.marks.slipped
  len := x.len
  seeded := x.seeded
  orphan := false

/-- The next shot of an OPEN pass fires (R88): trigger line, stamp and SLIP marking, tallies, hand-off, and
the close at the last shot. -/
def fire (p : PortId) (t : Tag) (s : State) : State :=
  match s.findPass p t, (s.port p).findEntry t with
  | some x, some e =>
    let sh := passShot s x e
    let s := s.modPort p Port.drive
    let s := modPass p t (fun x =>
      { (if sh.slip then x.slipSeen else x) with fired := x.fired + 1 }) s
    let s := modEntry p t (fun e => { e with next := e.next + 1, fired := e.fired + 1 }) s
    let s := handOff p sh s
    if e.next + 1 = e.n then closeRevolution p t s else s
  | _, _ => s

/-- A PLANNED pass becomes OPEN; a SLIPPED mark it carries becomes its flag too (R86). -/
def Pass.opening (x : Pass) : Pass :=
  { x with state := .opened, flags := { x.flags with slipped := x.flags.slipped || x.marks.slipped } }

/-- A decoded count reaches the port's Trigger Unit (R86, R88): with the count and the recognised direction in
the pass direction, the OPEN pass fires its next shot when the angle is that shot's position; with no OPEN
pass, the PLANNED pass whose shot 0 is reached opens and fires it. No shot fires while the permit is
NOT_PERMITTED (R99, log 21). -/
def countAtTrigger (dir : Direction) (p : PortId) (s : State) : State :=
  if s.angle.direction = dir ∧ s.permit.permit = .permitted then
    match (s.port p).openEntry with
    | some e =>
      if e.dir = dir ∧ e.next < e.n ∧ s.angle.value = e.position e.next then fire p e.tag s else s
    | none =>
      match (s.port p).plan.find? fun e =>
          (s.port p).entryIn .planned e && decide (e.dir = dir ∧ s.angle.value = e.position 0) with
      | some e => fire p e.tag (modPass p e.tag Pass.opening s)
      | none => s
  else s

/-! ### Slips (R87, R91 to R93) -/

/-- A slip sets the SLIPPED mark of every pass of the plan, and the flag of the OPEN one (R91). -/
def markSlip (p : PortId) (s : State) : State :=
  s.modPort p fun q =>
    { q with queue := q.queue.map fun x =>
        if (q.findEntry x.tag).isSome then
          (if x.state == .opened then x.slipSeen else { x with marks := { x.marks with slipped := true } })
        else x }

/-- Skip the unfired shots at or behind the landing angle, and close the revolution when none is left (R92,
R96). -/
def skipTo (p : PortId) (t : Tag) (landing : Nat) (s : State) : State :=
  match (s.port p).findEntry t with
  | none => s
  | some e =>
    let next := max e.next (e.behind landing)
    let s := if e.next < next then modPass p t Pass.skipSeen s else s
    let s := modEntry p t (fun e => { e with next := next }) s
    if next = e.n then closeRevolution p t s else s

/-- A slip taken at the port's Trigger Unit (R87, R91 to R93); `jumped` says that the angle moved. First the
OPEN pass, then, when none is OPEN, the PLANNED pass in whose extent the angle landed. -/
def slipAtTrigger (jumped : Bool) (p : PortId) (s : State) : State :=
  let landing := s.angle.value
  let s := markSlip p s
  if jumped then
    let s :=
      match (s.port p).openEntry with
      | some e => skipTo p e.tag landing s
      | none => s
    match (s.port p).openEntry with
    | some _ => s
    | none =>
      match (s.port p).plan.find? fun e =>
          (s.port p).entryIn .planned e && decide (e.dir = s.angle.direction) && e.holds landing with
      | some e => skipTo p e.tag landing (modPass p e.tag (fun x => { x.slipSeen with state := .opened }) s)
      | none => s
  else s

/-! ### Direction change (R97) -/

/-- Set the REVERSED mark and flag of a pass (R97). -/
def Pass.reverseSeen (x : Pass) : Pass :=
  { x with marks := { x.marks with reversed := true }, flags := { x.flags with reversed := true } }

/-- A direction change closes the revolution of the port's OPEN pass with REVERSED (R97). -/
def reverseAtTrigger (p : PortId) (s : State) : State :=
  match (s.port p).openEntry with
  | some e => closeRevolution p e.tag (modPass p e.tag Pass.reverseSeen s)
  | none => s

/-! ### Test shots (R81, R102, R164) -/

/-- The shot description of a test shot, stamped now (R100, R102). -/
def testShot (s : State) (p : PortId) (t : Test) (len : Nat) : Shot where
  kind := .test
  tag := p.castLE (by decide)
  owner := t.recipient
  blade := 0
  index := t.counter
  angle := s.angle.value
  revolution := s.angle.revolution
  slip := s.angle.suspect
  len := len
  seeded := false
  orphan := false

/-- The test return length of a firing mode. -/
def TestMode.len : TestMode → Nat
  | .shot len _ _ => len
  | .sweep len _ _ _ => len
  | .pattern _ => 0

/-- Change the running test of a port. -/
def modTest (p : PortId) (f : Test → Test) (s : State) : State :=
  s.modPort p fun q => { q with test := q.test.map f }

/-- A test shot is due (R81, R164): with a free entry it is reserved and the shot fires; with none the
test-skip count rises. No test shot fires while the permit is NOT_PERMITTED (R99). -/
def dueTestShot (p : PortId) (s : State) : State :=
  match (s.port p).test with
  | none => s
  | some t =>
    if (s.link t.recipient).fits 1 then
      if s.permit.permit = .permitted then
        let sh := testShot s p t t.mode.len
        let s := reserve t.recipient 1 s
        let s := s.modPort p Port.drive
        let s := modTest p (fun t => { t with counter := t.counter + 1 }) s
        handOff p sh s
      else s
    else s.modPort p fun q => { q with testSkips := saturate 255 q.testSkips }

/-! ### SWEEP tests (R163 to R165) -/

/-- Replace the phase of a SWEEP test. -/
def Test.withPhase (ph : SweepPhase) (t : Test) : Test :=
  match t.mode with
  | .sweep len step revs _ => { t with mode := .sweep len step revs ph }
  | .shot .. | .pattern _ => t

/-- The first multiple of STEP at or ahead of an angle in a direction, within 0..CPR−1 (R163). -/
def sweepFrom (dir : Direction) (step cpr angle : Nat) : Option Nat :=
  match dir with
  | .forward =>
    let x := (angle + step - 1) / step * step
    if x < cpr then some x else none
  | .reverse => some (angle / step * step)

/-- The first multiple of STEP strictly ahead of an angle in a direction, or none before the origin (R164,
R165). -/
def sweepAfter (dir : Direction) (step cpr angle : Nat) : Option Nat :=
  match dir with
  | .forward =>
    let x := (angle / step + 1) * step
    if x < cpr then some x else none
  | .reverse => if angle = 0 then none else some ((angle - 1) / step * step)

/-- An origin event begins or advances a SWEEP test, or ends it at its last revolution (R163). -/
def originAtSweep (dir : Direction) (p : PortId) (s : State) : State :=
  match (s.port p).test with
  | some t =>
    match t.mode with
    | .sweep _ step revs ph =>
      let first := fun d => sweepFrom d step s.angle.cfg.cpr s.angle.value
      match ph with
      | .waiting => modTest p (Test.withPhase (.running dir (first dir) revs)) s
      | .running d _ remaining =>
        if remaining ≤ 1 then endTest p .ready s
        else modTest p (Test.withPhase (.running d (first d) (remaining - 1))) s
    | .shot .. | .pattern _ => s
  | none => s

/-- A decoded count in the sweep direction onto the next position makes a test shot due, and the next position
moves on (R164). -/
def countAtSweep (dir : Direction) (p : PortId) (s : State) : State :=
  match (s.port p).test with
  | some t =>
    match t.mode with
    | .sweep _ step _ (.running d (some x) remaining) =>
      if d = dir ∧ s.angle.value = x then
        let s := dueTestShot p s
        modTest p (Test.withPhase (.running d (sweepAfter d step s.angle.cfg.cpr x) remaining)) s
      else s
    | .sweep .. | .shot .. | .pattern _ => s
  | none => s

/-- The angle has moved without travel: the next position of a running SWEEP is the first strictly ahead of
the landing angle (R165). -/
def jumpAtSweep (p : PortId) (s : State) : State :=
  match (s.port p).test with
  | some t =>
    match t.mode with
    | .sweep _ step _ (.running d _ remaining) =>
      modTest p (Test.withPhase (.running d (sweepAfter d step s.angle.cfg.cpr s.angle.value) remaining)) s
    | .sweep .. | .shot .. | .pattern _ => s
  | none => s

/-- A direction change ends a SWEEP that has begun (R165). -/
def reverseAtSweep (p : PortId) (s : State) : State :=
  match (s.port p).test with
  | some t =>
    match t.mode with
    | .sweep _ _ _ (.running ..) => endTest p .ready s
    | .sweep .. | .shot .. | .pattern _ => s
  | none => s

/-! ### What reaches a port (R22, R85) -/

/-- A direction change at a port. -/
def directionChangeAt (p : PortId) (s : State) : State := reverseAtSweep p (reverseAtTrigger p s)

/-- A decoded count at a port. -/
def countAt (dir : Direction) (p : PortId) (s : State) : State := countAtSweep dir p (countAtTrigger dir p s)

/-- A slip at a port. -/
def slipAt (jumped : Bool) (p : PortId) (s : State) : State :=
  let s := slipAtTrigger jumped p s
  if jumped then jumpAtSweep p s else s

end Sys2Proof.Machine
end

