-- ==== Sys2Proof/Machine/PlannerOps.lean ====
section
/-! DEFINITION. Shared operations of the Revolution Planners: the return of unopened passes, the gate, the walk
and its checks (chapter 4). -/

namespace Sys2Proof.Machine

/-- A PLANNED pass that did not open returns to QUEUED: it leaves the plan, its entries are released, its marks
cleared and its observation set EMPTY (R48, R66, R129). -/
def returnPass (p : PortId) (t : Tag) (s : State) : State :=
  if ((s.port p).findPass t).any (·.state == .planned) then
    modPass p t (fun x => { x.requeued with observation := x.observation.emptied }) (leavePlan p t s)
  else s

/-- Every pass of the plan that is still PLANNED returns (R66). R66 says that no pass of the plan is OPEN then; by
R16, R17 and R92 one can be, and the model keeps its entry in the plan, and the walk that follows checks extents and
capacity against it (the model's choice, log 35). -/
def returnUnopened (p : PortId) (s : State) : State :=
  ((s.port p).plan.map PlanEntry.tag).foldl (fun s t => returnPass p t s) s

/-- The gate of R67. -/
def plannerGate (p : PortId) (s : State) : Bool :=
  (s.port p).state == .ready && s.permit.permit == .permitted && s.plan.state == .active

/-- The shift c of a pass (R70). -/
def shiftOf (x : Pass) (b : Blade) : Int := if x.follow then b.correction else 0

/-- Whether the corrected window lies within 1..CPR−1 (R70). -/
def windowInRange (cpr : Nat) (b : Blade) (c : Int) : Bool :=
  decide (1 ≤ b.start + c ∧ b.close + c ≤ (cpr : Int) - 1)

/-- The plan entry of a pass with its corrected window start: the extent of R71, next shot 0, none fired (R83). -/
def newEntry (x : Pass) (b : Blade) (c : Int) : PlanEntry where
  tag := x.tag
  first := (b.start + c).toNat
  last := (b.start + c).toNat + (x.n - 1) * x.step
  dir := x.dir
  n := x.n
  step := x.step
  next := 0
  fired := 0

/-- Two extents share no count, both ends included (R64). -/
def PlanEntry.disjoint (a b : PlanEntry) : Bool := decide (a.last < b.first ∨ b.last < a.first)

/-- Put an entry at the point its extent start gives (R64). -/
def insertEntry (e : PlanEntry) : List PlanEntry → List PlanEntry
  | [] => [e]
  | x :: rest => if e.first < x.first then e :: x :: rest else x :: insertEntry e rest

/-- A pass is chosen (R74): n entries reserved, PLANNED, marks cleared, observation EMPTY (R129), and its
entry in the plan. -/
def choosePass (p : PortId) (x : Pass) (e : PlanEntry) (s : State) : State :=
  let s := reserve x.owner x.n s
  let s := modPass p x.tag (fun y =>
    { y with state := .planned, marks := Marks.none, observation := y.observation.emptied }) s
  s.modPort p fun q => { q with plan := insertEntry e q.plan }

/-- One pass of the walk is considered, check by check (R68 to R73). -/
def considerPass (dir : Direction) (p : PortId) (t : Tag) (s : State) : State :=
  match s.findPass p t with
  | none => s
  | some x =>
    if x.state = .queued ∧ x.dir = dir then
      match s.plan.find x.blade with
      | none => s
      | some b =>
        let c := shiftOf x b
        let e := newEntry x b c
        if !windowInRange s.angle.cfg.cpr b c then failPass p t (.failed .windowRange) s
        else if Config.planSize ≤ (s.port p).plan.length then s
        else if !((s.port p).plan.all e.disjoint) then s
        else if !((s.link x.owner).fits x.n) then s
        else choosePass p x e s
    else s

/-- The walk over the port queue, oldest pass first (R68). -/
def walk (dir : Direction) (p : PortId) (s : State) : State :=
  ((s.port p).queue.map Pass.tag).foldl (fun s t => considerPass dir p t s) s

/-- A planner takes an origin event whole (R66). -/
def originAtPlanner (dir : Direction) (p : PortId) (s : State) : State :=
  let s := returnUnopened p s
  if plannerGate p s then walk dir p s else s

/-- An origin event at a port: its planner and its test (R17). -/
def originAt (dir : Direction) (p : PortId) (s : State) : State := originAtSweep dir p (originAtPlanner dir p s)

end Sys2Proof.Machine
end

