-- ==== Sys2Proof/Machine/PermitOps.lean ====
section
/-! DEFINITION. Shared operations of the Permit Unit: what the permit is decided to be, its loss and its grant
(8.4). -/

namespace Sys2Proof.Machine

/-- What the permit is when it is decided: PERMITTED with LINE_OK and the hold set empty (R143). -/
def PermitUnit.decided (u : PermitUnit) : Permit :=
  if u.qualification = .lineOk ∧ u.hold = 0 then .permitted else .notPermitted

/-- A trigger line that is ACTIVE is driven INACTIVE and its pulse timer stops (R99). -/
def Port.cutPulse (q : Port) : Port := if q.trigger then q.release else q

/-- The loss of the permit, in the order of R144. -/
def loseTriggers (s : State) : State :=
  let s := eachPort (fun p s => s.modPort p Port.cutPulse) s
  let s := failPasses Pass.onTable .interlock s
  let s := atPorts (endTestIf TestMode.fires) s
  raiseAll .permit s

/-- Decide the permit anew (R143): a loss acts as R144 gives, a grant raises PERMIT on all masters (R145), and
no change does nothing. -/
def decidePermit (s : State) : State :=
  if s.permit.decided = s.permit.permit then s
  else
    let s := s.modPermit fun u => { u with permit := u.decided }
    match s.permit.permit with
    | .notPermitted => loseTriggers s
    | .permitted => raiseAll .permit s

/-- An event of the Permit Unit: when it changes the qualification state or the hold set, the permit is decided
anew as part of it, and the stall timer stops if no pass is left on the table (R143, R144, R18). -/
def changePermit (f : PermitUnit → PermitUnit) (s : State) : State :=
  let s' := s.modPermit f
  if s'.permit.qualification = s.permit.qualification ∧ s'.permit.hold = s.permit.hold then s'
  else syncStall (decidePermit s')

/-- The hold set with one master added or removed (R142, R146). -/
def setHold (m : Master) (on : Bool) (u : PermitUnit) : PermitUnit :=
  { u with hold := if on then u.hold ||| (1#3 <<< m.val) else u.hold &&& ~~~(1#3 <<< m.val) }

end Sys2Proof.Machine
end

