-- ==== Sys2Proof/Machine/AngleOps.lean ====
section
/-! DEFINITION. Shared operations of the Angle Unit: the decoder, the steps of a decoded count, indexes, slips,
loss of lock, the origin and its arming, and a change of configuration (chapter 1). -/

namespace Sys2Proof.Machine

/-! ### The decoder (R2, R3) -/

/-- One place forward in the order (0,0), (1,0), (1,1), (0,1). -/
def LinePair.next : LinePair → LinePair
  | .ll => .hl
  | .hl => .hh
  | .hh => .lh
  | .lh => .ll

/-- One place back in the order. -/
def LinePair.prev : LinePair → LinePair
  | .ll => .lh
  | .hl => .ll
  | .hh => .hl
  | .lh => .hh

/-- The line pair after a one-place change. -/
def LinePair.move : Move → LinePair → LinePair
  | .ahead => LinePair.next
  | .back => LinePair.prev

/-- The line pair of two levels, A first. -/
def LinePair.ofLevels : Bool → Bool → LinePair
  | false, false => .ll
  | true, false => .hl
  | true, true => .hh
  | false, true => .lh

/-- The count direction of a move (R2). -/
def countDirection : Sense → Move → Direction
  | .normal, .ahead => .forward
  | .normal, .back => .reverse
  | .inverted, .ahead => .reverse
  | .inverted, .back => .forward

/-- The other direction. -/
def Direction.flip : Direction → Direction
  | .forward => .reverse
  | .reverse => .forward

/-- What a count in a direction adds to the position count (R2). -/
def Direction.delta : Direction → Int
  | .forward => 1
  | .reverse => -1

/-! ### Origin arming (R16) -/

/-- Whether the angle lies in the far half of the revolution. -/
def AngleUnit.inFarHalf (a : AngleUnit) : Bool :=
  a.lock != .noIndex && within (a.cfg.cpr / 4) (3 * a.cfg.cpr / 4) a.value

/-- Set origin armed when the angle lies in the far half. -/
def AngleUnit.arm (a : AngleUnit) : AngleUnit := { a with originArmed := a.originArmed || a.inFarHalf }

/-! ### Slips and loss of lock (R12, R14, R15) -/

/-- Append an outcome to the slip window; the oldest leaves a full window first (R12). -/
def AngleUnit.append (o : IndexOutcome) (a : AngleUnit) : AngleUnit :=
  { a with
    slipWindow :=
      (if Config.windowSize ≤ a.slipWindow.length then a.slipWindow.drop 1 else a.slipWindow) ++ [o] }

/-- Whether the SLIP outcomes of the window end the lock (R12). -/
def AngleUnit.tooManySlips (a : AngleUnit) : Bool :=
  decide (a.cfg.slipLimit ≤ a.slipWindow.countP (· == .slip))

/-- The lock has left LOCKED: LOCK on all masters, every PLANNED and OPEN pass fails ANGLE_LOST, and any SWEEP
test ends (R15, R165). -/
def lossOfLock (s : State) : State :=
  let s := raiseAll .lock s
  let s := failPasses Pass.onTable .angleLost s
  atPorts (endTestIf TestMode.isSweep) s

/-- A SLIP outcome has been appended: the slip is delivered to the ports, and then the window is counted, which
may end the lock (R12, R14). -/
def takeSlip (jumped : Bool) (s : State) : State :=
  let s := atPorts (slipAt jumped) s
  if s.angle.tooManySlips then
    lossOfLock (s.modAngle fun a => { a with lock := .seeking, goodCount := 0 })
  else s

/-! ### Index events and missed indexes (R7 to R11) -/

/-- The index reference advanced by CPR in the direction of the index travel (R7, R8). -/
def AngleUnit.advance (a : AngleUnit) : AngleUnit :=
  { a with reference := if a.travel < 0 then a.reference - a.cfg.cpr else a.reference + a.cfg.cpr }

/-- The index reference re-taken at this count (R7). -/
def AngleUnit.retake (a : AngleUnit) : AngleUnit := { a with reference := a.position }

/-- The classes of an index event (R7). -/
inductive IndexClass where
  | recrossing
  | good
  | bad
  deriving DecidableEq, Repr

/-- The class of an index event by its index travel (R7). -/
def AngleUnit.classify (a : AngleUnit) : IndexClass :=
  if a.travel.natAbs ≤ a.cfg.idxTol then .recrossing
  else if ((a.travel.natAbs : Int) - a.cfg.cpr).natAbs ≤ a.cfg.idxTol then .good
  else .bad

/-- A good index while SEEKING: the good count rises, and at LOCK_REVS the lock is entered, the slip window
emptied and origin armed set (R10). -/
def AngleUnit.goodSeeking (a : AngleUnit) : AngleUnit :=
  let a := { a.advance with goodCount := a.goodCount + 1, suspect := false }
  if a.cfg.lockRevs ≤ a.goodCount then { a with lock := .locked, slipWindow := [], originArmed := true } else a

/-- An index event (R7, R9, R10, R11, R13). -/
def indexEvent (s : State) : State :=
  match s.angle.lock with
  | .noIndex =>
    raiseAll .lock (s.modAngle fun a => { a.retake with goodCount := 0, suspect := false, lock := .seeking })
  | .seeking =>
    match s.angle.classify with
    | .recrossing => s
    | .good =>
      let s := s.modAngle AngleUnit.goodSeeking
      if s.angle.lock = .locked then raiseAll .lock s else s
    | .bad => s.modAngle fun a => { a.retake with goodCount := 0, suspect := false }
  | .locked =>
    match s.angle.classify with
    | .recrossing => s
    | .good => s.modAngle fun a => { a.advance.append .good with suspect := false }
    | .bad =>
      let before := s.angle.value
      let s := s.modAngle fun a => { a.retake.append .slip with suspect := false }
      takeSlip (s.angle.value != before) s

/-- The missed-index test, made in SEEKING and LOCKED (R8, R10, R11). -/
def missedIndex (s : State) : State :=
  if s.angle.cfg.cpr + s.angle.cfg.idxTol < s.angle.travel.natAbs then
    match s.angle.lock with
    | .noIndex => s
    | .seeking => s.modAngle fun a => { a.advance with goodCount := 0 }
    | .locked => takeSlip false (s.modAngle fun a => a.advance.append .slip)
  else s

/-! ### The steps of a decoded count (R4) -/

/-- Step 1: the position count and the decoder state (R2). -/
def AngleUnit.count (move : Move) (a : AngleUnit) : AngleUnit :=
  { a with
    decoder := a.decoder.move move
    position := a.position + (countDirection a.cfg.sense move).delta }

/-- Whether a count against the recognised direction completes a reversal (R6). -/
def AngleUnit.reverses (d : Direction) (a : AngleUnit) : Bool :=
  d != a.direction && decide (a.cfg.revHyst ≤ a.reverseRun + 1)

/-- Step 2: the reverse run and the recognised direction (R6). -/
def AngleUnit.track (d : Direction) (a : AngleUnit) : AngleUnit :=
  if d = a.direction then { a with reverseRun := 0 }
  else if a.reverses d then { a with direction := d, reverseRun := 0 }
  else { a with reverseRun := a.reverseRun + 1 }

/-- Step 2 with the delivery of a direction change (R6). -/
def trackDirection (d : Direction) (s : State) : State :=
  let s' := s.modAngle (AngleUnit.track d)
  if s.angle.reverses d then atPorts directionChangeAt s' else s'

/-- Whether a move of the angle crosses the origin in a direction (R17). -/
def crosses (d : Direction) (cpr before after : Nat) : Bool :=
  match d with
  | .forward => before == cpr - 1 && after == 0
  | .reverse => before == 0 && after == cpr - 1

/-- Step 3: the origin test and the origin event (R17). -/
def originTest (d : Direction) (before : Nat) (s : State) : State :=
  let a := s.angle
  if a.lock = .locked ∧ a.originArmed = true ∧ d = a.direction ∧ crosses d a.cfg.cpr before a.value = true then
    atPorts (originAt d) (s.modAngle fun a => { a with revolution := a.revolution + 1, originArmed := false })
  else s

/-- Step 7: a running stall timer is restarted (R18). -/
def restartStall (s : State) : State :=
  if s.angle.stall.isRunning then s.modAngle fun a => { a with stall := startMillis a.cfg.stallTime } else s

/-- A decoded count, whole, in the order of R4; the count's arrival at the ports stands between steps 3 and 4
(R85). -/
def decodedCountSteps (move : Move) (encZ : Bool) (s : State) : State :=
  let d := countDirection s.angle.cfg.sense move
  let before := s.angle.value
  let s := s.modAngle (AngleUnit.count move)
  let s := trackDirection d s
  let s := originTest d before s
  let s := atPorts (countAt d) s
  let s := if s.angle.decoder = .ll ∧ encZ = true then indexEvent s else s
  let s := missedIndex s
  let s := s.modAngle AngleUnit.arm
  restartStall (syncStall s)

/-- A quadrature error (R3). -/
def quadratureErrorSteps (s : State) : State :=
  let s := s.modAngle fun a => { a with decoder := a.decoder.next.next }
  match s.angle.lock with
  | .noIndex => s
  | .seeking => s.modAngle fun a => { a with goodCount := 0 }
  | .locked => syncStall (takeSlip false (s.modAngle fun a => { a.append .slip with suspect := true }))

/-! ### A change of the angle configuration (R21) -/

/-- What a change of CPR or SENSE does to the Angle Unit, the new configuration in force; a change of SENSE
also exchanges the recognised direction. -/
def AngleUnit.loseIndex (senseDiffers : Bool) (a : AngleUnit) : AngleUnit :=
  { a with
    lock := .noIndex, goodCount := 0, slipWindow := [], suspect := false, originArmed := false
    direction := if senseDiffers then a.direction.flip else a.direction
    reverseRun := if senseDiffers then 0 else a.reverseRun }

/-- An accepted write of SET_ANGLE_CONFIG acts on what changed (R21). -/
def reconfigure (new : AngleConfig) (s : State) : State :=
  let old := s.angle.cfg
  let lock := s.angle.lock
  let s := s.modAngle fun a => { a with cfg := new }
  if new.cpr ≠ old.cpr ∨ new.sense ≠ old.sense then
    let s := s.modAngle (AngleUnit.loseIndex (new.sense != old.sense))
    match lock with
    | .noIndex => s
    | .seeking => raiseAll .lock s
    | .locked => lossOfLock s
  else if new.zeroOffset ≠ old.zeroOffset then
    (atPorts jumpAtSweep s).modAngle AngleUnit.arm
  else s

end Sys2Proof.Machine
end

