-- ==== Sys2Proof/Machine/AngleEvents.lean ====
section
/-! DEFINITION. The meanings of POWER_ON_RESET and of the Angle Unit's events. -/

namespace Sys2Proof.Machine

/-- The Permit Unit as RESET_N is released: BLOCKED, or QUALIFYING with INTLK asserted (R139). -/
def PermitUnit.released (intlk : Bool) : PermitUnit :=
  if intlk then
    { PermitUnit.powerOn with
      qualification := .qualifying, timer := startMillis PermitUnit.powerOn.qualTime }
  else PermitUnit.powerOn

/-- A link as RESET_N is released: a select already asserted is not a transaction (R174). -/
def Link.released (sel : Bool) : Link := { Link.powerOn with selectHeld := sel }

/-- POWER_ON_RESET: every block in its power-on state, with the sampled levels (R1, R40, R41, R65, R83, R103,
R127, R139, R147, R159, R174). The waiting commands and the count of free choices are the model's own and
stay. -/
def execPowerOnReset (encA encB intlk sel0 sel1 sel2 : Bool) (s : State) : Result :=
  .next
    { State.reset with
      angle := { AngleUnit.powerOn with decoder := LinePair.ofLevels encA encB }
      permit := PermitUnit.released intlk
      links := #v[Link.released sel0, Link.released sel1, Link.released sel2]
      choices := s.choices
      pending := s.pending }

/-- DECODED_COUNT (R4). -/
def execDecodedCount (move : Move) (encZ : Bool) (s : State) : Result := .next (decodedCountSteps move encZ s)

/-- QUADRATURE_ERROR (R3). -/
def execQuadratureError (s : State) : Result := .next (quadratureErrorSteps s)

/-- STALL_TIMER_EXPIRY: every PLANNED and OPEN pass fails TABLE_STALL, LOCK is raised on all masters and the
timer stops (R19). The expiry of a timer that a count has restarted, or that has stopped, does not happen. -/
def execStallTimerExpiry (s : State) : Result :=
  if s.angle.stall.isOut then
    .next (syncStall (raiseAll .lock (failPasses Pass.onTable .tableStall s)))
  else .next s

end Sys2Proof.Machine
end

