-- ==== Sys2Proof/Machine/HeadEvents.lean ====
section
/-! DEFINITION. The meanings of the events of the trigger lines and head links: pulse ends, exchanges, stray
bytes, a stuck line and the wake (5.9, chapter 6). -/

namespace Sys2Proof.Machine

/-- TRIG_PULSE_END: the pulse timer has run out; the line returns to INACTIVE and the timer stops (R98). -/
def execTrigPulseEnd (p : PortId) (s : State) : Result :=
  if (s.port p).pulse.isOut then .next (s.modPort p Port.release) else .next s

/-- The exchange enters AWAITING with (20 + L · RTO) bit times on its return timer (R115). -/
def Exchange.await (ex : Exchange) : Exchange :=
  { ex with phase := .awaiting, sendTimer := .stopped, timer := startBits (20 + ex.shot.len * ex.rto) ex.bitTime }

/-- Whether the tag frame has gone out to the end of its last stop bit (R104, R114). -/
def Exchange.isSent (ex : Exchange) : Bool := ex.phase == .sending && ex.sendTimer.isOut

/-- Whether a byte of the tag frame has just gone out to the end of its stop bits, with fewer than all left (R104). -/
def Exchange.atByteEnd (ex : Exchange) : Bool :=
  ex.phase == .sending
    && (List.range ex.frame.length).any fun k => ex.sendTimer == .running (k * byteTime ex.stopBits ex.bitTime)

/-- TAG_FRAME_SENT: the tag frame has gone out, four bytes of 9 + STOP_BITS bit times each, and read back correctly, its
stop bits high (R104, R114, R115, R121). -/
def execTagFrameSent (p : PortId) (s : State) : Result :=
  if (s.port p).exchange.any Exchange.isSent then
    .next (s.modPort p fun q => { q.seenHigh with exchange := q.exchange.map Exchange.await })
  else .next s

/-- READ_BACK_ERROR: a byte of the tag frame read back wrongly, and the exchange ends as BIT at the end of that byte
(R114). -/
def execReadBackError (p : PortId) (s : State) : Result :=
  if (s.port p).exchange.any Exchange.atByteEnd then .next (syncStall (endExchange p .bit [] s)) else .next s

/-- RETURN_FRAME_RECEIVED: the bytes of a return, well formed, one after another (R115, R116). -/
def execReturnFrameReceived (p : PortId) (bytes : List Byte) (s : State) : Result :=
  .next (syncStall (receiveBytes p bytes s))

/-- RETURN_BYTE_FRAME_ERROR: a byte that lacks its stop bit (R104, R115, R122). -/
def execReturnByteFrameError (p : PortId) (s : State) : Result :=
  if (s.port p).phase? = some .awaiting then .next (syncStall (receiveUnframed p s)) else .next (receiveUnframed p s)

/-- Whether the exchange awaits its return and the return timer has run out. -/
def Exchange.timedOut (ex : Exchange) : Bool := ex.phase == .awaiting && ex.timer.isOut

/-- RETURN_TIMEOUT: the return timer has run out before the return is complete (R115). -/
def execReturnTimeout (p : PortId) (s : State) : Result :=
  if (s.port p).exchange.any Exchange.timedOut then .next (syncStall (endExchange p .timeout [] s)) else .next s

/-- STRAY_BYTE: a byte received in READY or TEST when no return is awaited (R122). -/
def execStrayByte (p : PortId) (s : State) : Result := .next (s.modPort p Port.stray)

/-- LINE_STUCK: a watched line is seen low, without a break, for the bit times that its low run still lacks (log 17); the
run reaches 64 with them, and the port enters FAULT with reason STUCK at once (R121, R112). -/
def execLineStuck (p : PortId) (s : State) : Result :=
  let s := s.modPort p fun q => q.seenLow (64 - q.lowRun)
  if (s.port p).isStuck then .next (syncStall (faultIfStuck p s)) else .next s

/-- WAKE_PULSE_END: the 16 bit times have run out; the line is released, the low run starts from 0 and the wake timer starts (R107). -/
def execWakePulseEnd (p : PortId) (s : State) : Result :=
  if (s.port p).state = .waking ∧ (s.port p).wakePulse.isOut = true then
    .next (s.modPort p fun q =>
      { q with wakePulse := .stopped, wake := startMillis q.cfg.wakeTime, lowRun := 0, bitLeft := 0 })
  else .next s

/-- READY_RETURN: the bytes of a ready return, well formed, one after another (R108). -/
def execReadyReturn (p : PortId) (bytes : List Byte) (s : State) : Result :=
  .next (syncStall (receiveBytes p bytes s))

/-- WAKE_TIMEOUT: the wake timer has run out in WAKING (R108, R112). -/
def execWakeTimeout (p : PortId) (s : State) : Result :=
  if (s.port p).state = .waking ∧ (s.port p).wake.isOut = true then
    .next (syncStall (enterFault p .wakeTimeout s))
  else .next s

end Sys2Proof.Machine
end

