-- ==== Sys2Proof/Machine/LinkEvents.lean ====
section
/-! DEFINITION. The meanings of the select line and of the request frames that are not taken (11.2). -/

namespace Sys2Proof.Machine

/-- SELECT_ASSERTED: in IDLE a transaction starts in phase REQUEST (R175); a select held since power-on is not
a transaction (R174). -/
def execSelectAsserted (m : Master) (s : State) : Result :=
  if (s.link m).phase = .idle ∧ (s.link m).selectHeld = false then
    .next (s.modLink m fun l => { l with phase := .request, request := [], turnaround := 0, reply := [] })
  else .next s

/-- What a deassertion does to the abandoned count: in REQUEST with a rising edge of SCK seen it rises by 1,
stopping at 255 (R177). -/
def Link.countAbandoned (clocked : Bool) (l : Link) : Link :=
  if l.phase = .request ∧ clocked = true then { l with abandoned := saturate 255 l.abandoned } else l

/-- SELECT_DEASSERTED: back to IDLE from any phase, the bytes of the transaction lost (R175, R177). -/
def execSelectDeasserted (m : Master) (clocked : Bool) (s : State) : Result :=
  .next (s.modLink m fun l =>
    { l.countAbandoned clocked with phase := .idle, request := [], turnaround := 0, reply := [], selectHeld := false })

/-- UNKNOWN_REQUEST_CODE (R176). -/
def execUnknownRequestCode (m : Master) (code : Byte) (params : List Byte) (s : State) : Result :=
  .next (requestNotTaken m (requestFrame code params) .unknown s)

/-- REQUEST_BAD_CHECK (R176). -/
def execRequestBadCheck (m : Master) (code : Byte) (params : List Byte) (check : Byte) (s : State) : Result :=
  .next (requestNotTaken m (rawFrame code params check) .badCheck s)

/-- REQUEST_BAD_LENGTH (R176). -/
def execRequestBadLength (m : Master) (code length : Byte) (rest : List Byte) (s : State) : Result :=
  .next (requestNotTaken m (code :: length :: rest) .badLength s)

end Sys2Proof.Machine
end

