-- ==== Sys2Proof/Machine/ClaimRequests.lean ====
section
/-! DEFINITION. The meanings of the requests of the Claim Unit (9.2). -/

namespace Sys2Proof.Machine

/-- 0 FREE, 1 HELD, 2 HANDOVER (12.2). -/
def Claim.code : Claim → Nat
  | .free => 0
  | .held _ => 1
  | .handover .. => 2

/-- The time left on the handover timer in milliseconds, a part of one rounded by a free value (log 6). Outside HANDOVER
it is 0: 12.3.1 says so of READ_STATUS; of a claim reply it is the model's inference (log 40). -/
def Claim.millis : Claim → Nat
  | .handover _ _ left => millisLeft left
  | .free | .held _ => 0

/-- The reply data of a claim request: state, holder, claimant and two bytes for the time left (R148, 12.3). R148 names
the time only in HANDOVER; that the two bytes are 0 outside it is the model's inference (log 40). -/
def Claim.bytes (c : Claim) : List Byte :=
  [byteOf c.code, masterByte c.holder?, masterByte c.claimant?] ++ leBytes 2 c.millis

/-- What a claim request answers: the status, the claim after it, and the master that CLAIM is raised on. -/
structure ClaimStep where
  status : Status
  claim : Claim
  notice : Option Master
  deriving DecidableEq, Repr

/-- CLAIM from master `r` (R149). -/
def claimStep (r : Master) (c : Claim) : ClaimStep :=
  match c with
  | .free => ⟨.ok, .held r, none⟩
  | .held m => ⟨if m = r then .ok else .heldByOther, c, none⟩
  | .handover .. => ⟨.busy, c, none⟩

/-- TAKE from master `r` (R150). -/
def takeStep (r : Master) (c : Claim) : ClaimStep :=
  match c with
  | .free => ⟨.ok, .held r, none⟩
  | .held m =>
    if m = r then ⟨.ok, c, none⟩
    else ⟨.ok, .handover m r (Config.handoverTime * Config.periodsPerMilli), some m⟩
  | .handover .. => ⟨.busy, c, none⟩

/-- RELEASE from master `r` (R151). -/
def releaseStep (r : Master) (c : Claim) : ClaimStep :=
  match c with
  | .free => ⟨.notHolder, c, none⟩
  | .held m => if m = r then ⟨.ok, .free, none⟩ else ⟨.notHolder, c, none⟩
  | .handover m n _ => if m = r then ⟨.ok, .held n, some n⟩ else ⟨.notHolder, c, none⟩

/-- DECLINE from master `r` (R152). -/
def declineStep (r : Master) (c : Claim) : ClaimStep :=
  match c with
  | .free => ⟨.notHolder, c, none⟩
  | .held m => ⟨if m = r then .wrongState else .notHolder, c, none⟩
  | .handover m n _ => if m = r then ⟨.ok, .held m, some n⟩ else ⟨.notHolder, c, none⟩

/-- A claim request against the named claim (R148). -/
def claimRequest (act : Master → Claim → ClaimStep) (m : Master) (name : Byte) (s : State) : Answer :=
  match readClaim name with
  | none => refuse .range s
  | some c =>
    let r := act m (s.claim c)
    let s := s.setClaim c r.claim
    ⟨r.status, r.claim.bytes, match r.notice with | some n => raise .claim n s | none => s⟩

/-- CLAIM (R149). -/
def execClaim (m : Master) (name : Byte) (s : State) : Result :=
  .next (request m 0x20 [name] (claimRequest claimStep m name) s)

/-- RELEASE (R151). -/
def execRelease (m : Master) (name : Byte) (s : State) : Result :=
  .next (request m 0x21 [name] (claimRequest releaseStep m name) s)

/-- TAKE (R150). -/
def execTake (m : Master) (name : Byte) (s : State) : Result :=
  .next (request m 0x22 [name] (claimRequest takeStep m name) s)

/-- DECLINE (R152). -/
def execDecline (m : Master) (name : Byte) (s : State) : Result :=
  .next (request m 0x23 [name] (claimRequest declineStep m name) s)

end Sys2Proof.Machine
end

