-- ==== Sys2Proof/Machine/PlanRequests.lean ====
section
/-! DEFINITION. The meanings of the requests that the Plan Store, the Angle Unit and the Permit Unit own
(chapters 1, 2 and 8). Each request's checks stand in the order of its rule, and the first that fails answers. -/

namespace Sys2Proof.Machine

/-! ### PUT_BLADE (R26 to R28) -/

/-- The reply of PUT_BLADE: entries, and the position of the number after the request, FF for none (R26). -/
def answerBlade (status : Status) (number : Byte) (s : State) : Answer :=
  ⟨status, [byteOf s.plan.blades.length, s.plan.position number], s⟩

/-- A new entry at its place (R27), or a replaced one (R28). -/
def placeBlade (b : Blade) (s : State) : State :=
  s.modPlan fun ps => { ps with blades := insertBlade b (dropNumber b.number ps.blades) }

/-- The entry after a replacement: correction and passes completed kept unless the image resets them (R28). -/
def replacedBlade (im : BladeImage) (old new : Blade) : Blade :=
  { new with
    correction := if imageResetCorrection im then 0 else old.correction
    completed := if imageResetCount im then 0 else old.completed }

/-- The checks and the effect of PUT_BLADE (R26). -/
def putBlade (m : Master) (im : BladeImage) (s : State) : Answer :=
  if !s.holdsPlan m then answerBlade .notHolder im.number s
  else if s.plan.state ≠ .edit then answerBlade .wrongState im.number s
  else
    match readBladeImage s.angle.cfg.cpr im with
    | none => answerBlade .range im.number s
    | some b =>
      match imageReplace im, s.plan.find im.number with
      | false, some _ => answerBlade .duplicate im.number s
      | true, none => answerBlade .noSuchBlade im.number s
      | false, none =>
        if Config.tableSize ≤ s.plan.blades.length then answerBlade .tableFull im.number s
        else answerBlade .ok im.number (placeBlade b s)
      | true, some old => answerBlade .ok im.number (placeBlade (replacedBlade im old b) s)

/-- PUT_BLADE (R26). -/
def execPutBlade (m : Master) (image : BladeImage) (s : State) : Result :=
  .next (request m 0x10 (bladeParams image) (putBlade m image) s)

/-! ### DROP_BLADE (R29) and READ_BLADE (R30) -/

/-- The reply of DROP_BLADE, and of a refused READ_BLADE: the number of entries. -/
def answerEntries (status : Status) (s : State) : Answer := ⟨status, [byteOf s.plan.blades.length], s⟩

/-- The checks and the effect of DROP_BLADE (R29). R24 says that its reply shows table positions; R29, 12.3 and R189 give
the reply the number of entries alone, and that the model follows them is its own reading (log 41). -/
def dropBlade (m : Master) (number : Byte) (s : State) : Answer :=
  if !s.holdsPlan m then answerEntries .notHolder s
  else if s.plan.state ≠ .edit then answerEntries .wrongState s
  else if (s.plan.find number).isNone then answerEntries .noSuchBlade s
  else answerEntries .ok (s.modPlan fun ps => { ps with blades := dropNumber number ps.blades })

/-- DROP_BLADE (R29). -/
def execDropBlade (m : Master) (blade : Byte) (s : State) : Result :=
  .next (request m 0x11 [blade] (dropBlade m blade) s)

/-- The reply that carries one entry: its image, its position and the number of entries (R30). -/
def answerEntry (b : Option Blade) (s : State) : Answer :=
  match b with
  | some b => ⟨.ok, b.bytes ++ [s.plan.position b.number, byteOf s.plan.blades.length], s⟩
  | none => answerEntries .noSuchBlade s

/-- The checks and the answer of READ_BLADE (R30): selector 0 BY_NUMBER, 1 BY_POSITION. -/
def readBlade (selector value : Byte) (s : State) : Answer :=
  match selector.toNat with
  | 0 => answerEntry (s.plan.find value) s
  | 1 =>
    if Config.tableSize ≤ value.toNat then answerEntries .range s
    else answerEntry s.plan.blades[value.toNat]? s
  | _ => answerEntries .range s

/-- READ_BLADE (R30). -/
def execReadBlade (m : Master) (selector value : Byte) (s : State) : Result :=
  .next (request m 0x12 [selector, value] (readBlade selector value) s)

/-! ### OPEN_PLAN (R33) and ACTIVATE_PLAN (R32) -/

/-- The accepted reply of OPEN_PLAN and ACTIVATE_PLAN: the plan state after the request (12.3). -/
def answerPlan (s : State) : Answer := ⟨.ok, [byteOf s.plan.state.code], s⟩

/-- The checks and the effect of OPEN_PLAN (R33). -/
def openPlan (m : Master) (s : State) : Answer :=
  if !s.holdsPlan m then refuse .notHolder s
  else
    match s.plan.state with
    | .edit => answerPlan s
    | .active =>
      if s.livePasses.isEmpty then answerPlan (s.modPlan fun ps => { ps with state := .edit }) else refuse .busy s

/-- OPEN_PLAN (R33). -/
def execOpenPlan (m : Master) (s : State) : Result := .next (request m 0x13 [] (openPlan m) s)

/-- The checks and the effect of ACTIVATE_PLAN (R32). -/
def activatePlan (m : Master) (s : State) : Answer :=
  if !s.holdsPlan m then refuse .notHolder s
  else
    match s.plan.state with
    | .active => answerPlan s
    | .edit =>
      if s.plan.blades.isEmpty then refuse .empty s else answerPlan (s.modPlan fun ps => { ps with state := .active })

/-- ACTIVATE_PLAN (R32). -/
def execActivatePlan (m : Master) (s : State) : Result := .next (request m 0x14 [] (activatePlan m) s)

/-! ### SET_ANGLE_CONFIG (R20, R21) -/

/-- The reply of SET_ANGLE_CONFIG: the parameters in force after the request (R20). -/
def answerAngle (status : Status) (s : State) : Answer := ⟨status, s.angle.cfg.bytes, s⟩

/-- The checks of SET_ANGLE_CONFIG (R20). -/
def setAngleConfig (m : Master) (write : Option AngleParams) (s : State) : Answer :=
  match write with
  | none => answerAngle .ok s
  | some a =>
    if !s.holdsPlan m then answerAngle .notHolder s
    else if s.plan.state ≠ .edit then answerAngle .wrongState s
    else
      match readAngleParams a with
      | none => answerAngle .range s
      | some new =>
        if new.cpr ≠ s.angle.cfg.cpr ∧ s.plan.blades ≠ [] then answerAngle .busy s
        else answerAngle .ok (syncStall (reconfigure new s))

/-- SET_ANGLE_CONFIG (R20, R21). -/
def execSetAngleConfig (m : Master) (write : Option AngleParams) (s : State) : Result :=
  .next (request m 0x15 (angleParams write) (setAngleConfig m write) s)

/-! ### SET_ADAPT (R39) -/

/-- The reply of SET_ADAPT: the settings in force (R39). -/
def answerAdapt (status : Status) (s : State) : Answer :=
  ⟨status, [byteOf s.plan.gain, byteOf (flagBit s.plan.frozen 0)], s⟩

/-- The checks and the effect of SET_ADAPT (R39). -/
def setAdapt (m : Master) (write : Option AdaptParams) (s : State) : Answer :=
  match write with
  | none => answerAdapt .ok s
  | some a =>
    if !s.holdsPlan m then answerAdapt .notHolder s
    else
      match within 0 7 a.gain.toNat, readFreeze a.freeze with
      | true, some frozen => answerAdapt .ok (s.modPlan fun ps => { ps with gain := a.gain.toNat, frozen := frozen })
      | _, _ => answerAdapt .range s

/-- SET_ADAPT (R39). -/
def execSetAdapt (m : Master) (write : Option AdaptParams) (s : State) : Result :=
  .next (request m 0x16 (adaptParams write) (setAdapt m write) s)

/-! ### RESET_CORRECTION (R38) -/

/-- The checks and the effect of RESET_CORRECTION (R38): scope 0 ONE, 1 ALL. -/
def resetCorrection (m : Master) (scope number : Byte) (s : State) : Answer :=
  if !s.holdsPlan m then refuse .notHolder s
  else
    match scope.toNat with
    | 0 =>
      match s.plan.find number with
      | none => refuse .noSuchBlade s
      | some b => ⟨.ok, leBytesInt 2 b.correction, modBlade number (fun b => { b with correction := 0 }) s⟩
    | 1 =>
      ⟨.ok, [0, 0],
        s.modPlan fun ps => { ps with blades := ps.blades.map fun b => { b with correction := 0 } }⟩
    | _ => refuse .range s

/-- RESET_CORRECTION (R38). -/
def execResetCorrection (m : Master) (scope blade : Byte) (s : State) : Result :=
  .next (request m 0x17 [scope, blade] (resetCorrection m scope blade) s)

/-! ### SET_PERMIT_CONFIG (R141) -/

/-- The qualification state, the permit and the hold set, one byte each (12.3). -/
def PermitUnit.bytes (u : PermitUnit) : List Byte :=
  [byteOf u.qualification.code, byteOf u.permit.code, byteOf u.hold.toNat]

/-- The reply of SET_PERMIT_CONFIG (R141). -/
def answerPermit (status : Status) (s : State) : Answer := ⟨status, leBytes 2 s.permit.qualTime ++ s.permit.bytes, s⟩

/-- The checks and the effect of SET_PERMIT_CONFIG (R141). -/
def setPermitConfig (m : Master) (write : Option Half) (s : State) : Answer :=
  match write with
  | none => answerPermit .ok s
  | some t =>
    if !s.holdsPlan m then answerPermit .notHolder s
    else if tenMillis 100 2000 t.toNat then answerPermit .ok (s.modPermit fun u => { u with qualTime := t.toNat })
    else answerPermit .range s

/-- SET_PERMIT_CONFIG (R141). -/
def execSetPermitConfig (m : Master) (write : Option Half) (s : State) : Result :=
  .next (request m 0x18 (permitParams write) (setPermitConfig m write) s)

end Sys2Proof.Machine
end

