-- ==== Sys2Proof/Machine/PortRequests.lean ====
section
/-! DEFINITION. The meanings of the requests of the Head Link Controllers and of the port test modes (chapters 6
and 10). -/

namespace Sys2Proof.Machine

/-- A controlled request of a port: the port number, then the controller, then the request's own checks (R157). -/
def onPort (m : Master) (port : Byte) (act : PortId → State → Answer) (s : State) : Answer :=
  match readPort port with
  | none => refuse .range s
  | some p => if s.controller p = some m then act p s else refuse .notHolder s

/-- An accepted reply that carries the port state after the request (12.3). -/
def answerPort (p : PortId) (s : State) : Answer := ⟨.ok, [byteOf (s.port p).state.code], s⟩

/-! ### PORT_ON (R107), PORT_OFF (R109, R110), RESUME_PORT (R111) -/

/-- PORT_ON at a port: taken in OFF (R107). -/
def turnOn (p : PortId) (s : State) : Answer :=
  match (s.port p).state with
  | .off => answerPort p (s.modPort p Port.startWake)
  | .waking | .ready | .test | .fault => refuse .wrongState s

/-- PORT_ON (R107). -/
def execPortOn (m : Master) (port : Byte) (s : State) : Result :=
  .next (request m 0x30 [port] (onPort m port turnOn) s)

/-- The port enters OFF (R109). -/
def enterOff (p : PortId) (s : State) : State := s.modPort p Port.turnedOff

/-- Every live pass of the port fails PORT_OFF behind the ended exchange, and the port enters OFF (R110). -/
def forceOff (p : PortId) (s : State) : State :=
  enterOff p (failPort (fun _ => true) (.failed .portOff) p (cutExchange p .aborted s))

/-- PORT_OFF at a port, by its state (R109, R110). -/
def turnOff (force : Byte) (p : PortId) (s : State) : Answer :=
  if 1 < force.toNat then refuse .range s
  else
    match (s.port p).state with
    | .off => answerPort p s
    | .waking | .fault => answerPort p (enterOff p s)
    | .ready =>
      if (s.port p).queue.isEmpty then answerPort p (enterOff p (cutExchange p .aborted s))
      else if force = 0 then refuse .busy s
      else answerPort p (syncStall (forceOff p s))
    | .test => answerPort p (enterOff p (endTest p .off (cutExchange p .aborted s)))

/-- PORT_OFF (R109). -/
def execPortOff (m : Master) (port force : Byte) (s : State) : Result :=
  .next (request m 0x31 [port, force] (onPort m port (turnOff force)) s)

/-- RESUME_PORT at a port: taken in FAULT (R111). -/
def resume (p : PortId) (s : State) : Answer :=
  match (s.port p).state with
  | .fault =>
    answerPort p (s.modPort p fun q => ({ q with fault := .none, consecutive := 0 } : Port).startWake)
  | .off | .waking | .ready | .test => refuse .wrongState s

/-- RESUME_PORT (R111). -/
def execResumePort (m : Master) (port : Byte) (s : State) : Result :=
  .next (request m 0x32 [port] (onPort m port resume) s)

/-! ### SET_PORT_CONFIG (R105, R106) and READ_PORT_COUNTERS (R123) -/

/-- The reply of SET_PORT_CONFIG: the parameters in force after the request (R105). -/
def answerConfig (status : Status) (p : PortId) (s : State) : Answer := ⟨status, (s.port p).cfg.bytes, s⟩

/-- Whether a port takes a new configuration: OFF, or READY with an empty port queue (R105). -/
def Port.configurable (q : Port) : Bool :=
  match q.state with
  | .off => true
  | .ready => q.queue.isEmpty
  | .waking | .test | .fault => false

/-- The checks and the effect of SET_PORT_CONFIG (R105). -/
def setPortConfig (m : Master) (port : Byte) (write : Option PortParams) (s : State) : Answer :=
  match readPort port, write with
  | none, _ => refuse .range s
  | some p, none => answerConfig .ok p s
  | some p, some c =>
    if s.controller p ≠ some m then answerConfig .notHolder p s
    else if !(s.port p).configurable then answerConfig .wrongState p s
    else
      match readPortParams c with
      | none => answerConfig .range p s
      | some cfg => answerConfig .ok p (s.modPort p fun q => { q with cfg := cfg })

/-- SET_PORT_CONFIG (R105). -/
def execSetPortConfig (m : Master) (port : Byte) (write : Option PortParams) (s : State) : Result :=
  .next (request m 0x33 (portParams port write) (setPortConfig m port write) s)

/-- The reply data of READ_PORT_COUNTERS (R123). -/
def Port.counterBytes (q : Port) : List Byte :=
  [byteOf q.state.code, byteOf q.fault.code, byteOf q.consecutive, byteOf q.linkErrors, byteOf q.testSkips]
    ++ leBytes 2 q.patternErrors ++ [byteOf q.checker.code]

/-- The counts that a read clears (R123). -/
def Port.clearCounts (q : Port) : Port := { q with linkErrors := 0, testSkips := 0, patternErrors := 0 }

/-- READ_PORT_COUNTERS at a port (R123). -/
def readCounters (p : PortId) (s : State) : Answer := ⟨.ok, (s.port p).counterBytes, s.modPort p Port.clearCounts⟩

/-- READ_PORT_COUNTERS (R123). -/
def execReadPortCounters (m : Master) (port : Byte) (s : State) : Result :=
  .next (request m 0x34 [port] (onPort m port readCounters) s)

/-! ### START_TEST (R160), STOP_TEST (R161), INSERT_ERROR (R171) -/

/-- A mode as it begins on a port: SHOT starts its interval timer (R162), SWEEP waits (R163), PATTERN sends its first
byte inside the part with the INTERNAL loop, or its ECHO_ON frame with the ECHO loop (R168). -/
def TestMode.begun (p : PortId) (s : State) : TestMode → TestMode
  | .shot len interval _ => .shot len interval (startMillis interval)
  | .sweep len step revs _ => .sweep len step revs .waiting
  | .pattern pt =>
    .pattern <|
      match pt.loop with
      | .internal => (Pattern.start .internal []).send (s.port p).cfg 1
      | .echo => (Pattern.start .echo (echoFrame .echoOn p s)).send (s.port p).cfg 4

/-- The test begins (R160); a PATTERN test also clears the pattern error count and starts HUNTING (R168). -/
def beginTest (m : Master) (mode : TestMode) (p : PortId) (s : State) : State :=
  s.modPort p fun q =>
    { q with
      state := .test
      test := some { recipient := m, counter := 0, mode := mode.begun p s }
      patternErrors := if mode.fires then q.patternErrors else 0
      checker := if mode.fires then q.checker else .hunting }

/-- START_TEST at a port (R160). -/
def startTest (m : Master) (params : TestParams) (p : PortId) (s : State) : Answer :=
  let q := s.port p
  if q.state ≠ .ready then refuse .wrongState s
  else if !q.queue.isEmpty || q.exchange.isSome then refuse .busy s
  else
    match readTest params with
    | none => refuse .range s
    | some mode =>
      if mode.isSweep = true ∧ s.angle.lock ≠ .locked then refuse .wrongState s
      else if mode.fires = true ∧ s.permit.permit ≠ .permitted then refuse .notPermitted s
      else answerPort p (beginTest m mode p s)

/-- START_TEST (R160). -/
def execStartTest (m : Master) (port : Byte) (test : TestParams) (s : State) : Result :=
  .next (request m 0x35 (testParams port test) (onPort m port (startTest m test)) s)

/-- STOP_TEST at a port (R161). -/
def stopTestAt (p : PortId) (s : State) : Answer :=
  if (s.port p).state = .test then answerPort p (stopTest p s) else refuse .wrongState s

/-- STOP_TEST (R161). -/
def execStopTest (m : Master) (port : Byte) (s : State) : Result :=
  .next (request m 0x36 [port] (onPort m port stopTestAt) s)

/-- INSERT_ERROR at a port (R171). -/
def insertAt (p : PortId) (s : State) : Answer :=
  match (s.port p).state, (s.port p).test with
  | .test, some t =>
    match t.mode with
    | .pattern pt =>
      if pt.stopping then refuse .wrongState s
      else if pt.insert then refuse .busy s
      else ⟨.ok, [], s.modPort p fun q => { q with test := some { t with mode := .pattern { pt with insert := true } } }⟩
    | .shot .. | .sweep .. => refuse .wrongState s
  | _, _ => refuse .wrongState s

/-- INSERT_ERROR (R171). -/
def execInsertError (m : Master) (port : Byte) (s : State) : Result :=
  .next (request m 0x37 [port] (onPort m port insertAt) s)

end Sys2Proof.Machine
end

