-- ==== Sys2Proof/Machine/LinkRequests.lean ====
section
/-! DEFINITION. The meanings of HOLD and UNHOLD, of the requests that a Master Link Interface owns, and of the
two resets through the links (8.3, chapter 11). -/

namespace Sys2Proof.Machine

/-! ### HOLD and UNHOLD (R142) -/

/-- HOLD or UNHOLD: the hold set changed, the permit decided, and what stands after it in the reply (R142). -/
def changeHold (m : Master) (on : Bool) (s : State) : Answer :=
  let s := changePermit (setHold m on) s
  ⟨.ok, s.permit.bytes, s⟩

/-- HOLD (R142). -/
def execHold (m : Master) (s : State) : Result := .next (request m 0x48 [] (changeHold m true) s)

/-- UNHOLD (R142). -/
def execUnhold (m : Master) (s : State) : Result := .next (request m 0x49 [] (changeHold m false) s)

/-! ### FETCH (R180) -/

/-- The held and reserved counts of a link, one byte each. -/
def Link.countBytes (l : Link) : List Byte := [byteOf l.held, byteOf l.reserved]

/-- The answer of FETCH: the oldest record leaves the list, or EMPTY (R180). -/
def fetch (m : Master) (s : State) : Answer :=
  match (s.link m).records with
  | [] => ⟨.empty, (s.link m).countBytes, s⟩
  | r :: rest =>
    let s := s.modLink m fun l => { l with records := rest }
    ⟨.ok, r.bytes ++ (s.link m).countBytes, s⟩

/-- FETCH (R180). -/
def execFetch (m : Master) (s : State) : Result := .next (request m 0x50 [] (fetch m) s)

/-! ### CLEAR_NOTICES (R182) and SET_NOTICE_ENABLE (R183) -/

/-- The answer of CLEAR_NOTICES (R182). -/
def clearNotices (m : Master) (mask : Byte) (s : State) : Answer :=
  let s := s.modLink m fun l => ({ l with flags := l.flags &&& ~~~mask } : Link).redrive
  ⟨.ok, [(s.link m).flags, (s.link m).enables], s⟩

/-- CLEAR_NOTICES (R182). -/
def execClearNotices (m : Master) (mask : Byte) (s : State) : Result :=
  .next (request m 0x51 [mask] (clearNotices m mask) s)

/-- The answer of SET_NOTICE_ENABLE (R183). -/
def setNoticeEnable (m : Master) (write : Option Byte) (s : State) : Answer :=
  let s :=
    match write with
    | none => s
    | some e => s.modLink m fun l => ({ l with enables := e } : Link).redrive
  ⟨.ok, [(s.link m).enables, (s.link m).flags], s⟩

/-- SET_NOTICE_ENABLE (R183). -/
def execSetNoticeEnable (m : Master) (write : Option Byte) (s : State) : Result :=
  .next (request m 0x52 (enableParams write) (setNoticeEnable m write) s)

/-! ### READ_STATUS (R185, 12.3.1) -/

/-- Bytes 0 to 6: angle, revolution number, lock state, direction, SUSPECT. -/
def AngleUnit.statusBytes (a : AngleUnit) : List Byte :=
  leBytes 3 a.value ++ leBytes 3 a.revolution.toNat
    ++ [byteOf (a.lock.code + 4 * a.direction.code + flagBit a.suspect 3)]

/-- Byte 7: permit, qualification state, hold set, plan state. -/
def permitStatusByte (u : PermitUnit) (ps : PlanStore) : Byte :=
  byteOf (u.permit.code + 2 * u.qualification.code + 8 * u.hold.toNat + 64 * ps.state.code)

/-- Three of the bytes 8 to 22: claim state, holder, claimant, time left. -/
def Claim.statusBytes (c : Claim) : List Byte :=
  byteOf (c.code + 4 * masterBits c.holder? + 16 * masterBits c.claimant?) :: leBytes 2 c.millis

/-- Three of the bytes 23 to 34: port state and fault reason, queue depth, plan depth. -/
def Port.statusBytes (q : Port) : List Byte :=
  [byteOf (q.state.code + 8 * q.fault.code), byteOf q.queue.length, byteOf q.plan.length]

/-- Bytes 35 to 39: held, reserved, abandoned count, notice flags, notice enables. -/
def Link.statusBytes (l : Link) : List Byte := l.countBytes ++ [byteOf l.abandoned, l.flags, l.enables]

/-- The forty bytes of the READ_STATUS reply (12.3.1). -/
def statusBytes (m : Master) (s : State) : List Byte :=
  s.angle.statusBytes ++ [permitStatusByte s.permit s.plan]
    ++ allClaims.flatMap (fun c => (s.claim c).statusBytes)
    ++ allPorts.flatMap (fun p => (s.port p).statusBytes) ++ (s.link m).statusBytes

/-- The answer of READ_STATUS; the link's abandoned count is then 0 (R185). -/
def readStatus (m : Master) (s : State) : Answer :=
  ⟨.ok, statusBytes m s, s.modLink m fun l => { l with abandoned := 0 }⟩

/-- READ_STATUS (R185). -/
def execReadStatus (m : Master) (s : State) : Result := .next (request m 0x53 [] (readStatus m) s)

/-! ### SCAN_RESET (R186) -/

/-- What SCAN_RESET does to a port after its passes and its test (R124). -/
def Port.scanReset (q : Port) : Port :=
  { (if q.state = .fault then q.turnedOff else q) with
    consecutive := 0, linkErrors := 0, patternErrors := 0, testSkips := 0 }

/-- SCAN_RESET, in the order of R186: passes, tests, ports. -/
def scanSteps (s : State) : State :=
  let s := failPasses (fun _ => true) .scanReset s
  let s := atPorts stopTest s
  eachPort (fun p s => s.modPort p Port.scanReset) s

/-- The claim check and the effect of SCAN_RESET (R186). -/
def scanReset (m : Master) (s : State) : Answer :=
  if s.holdsPlan m then ⟨.ok, [], syncStall (scanSteps s)⟩ else refuse .notHolder s

/-- SCAN_RESET (R186). -/
def execScanReset (m : Master) (s : State) : Result := .next (request m 0x5E [] (scanReset m) s)

/-! ### LINK_RESET (R187) -/

/-- A shot whose owner's link is reset is marked so (R117). -/
def Shot.orphaned (m : Master) (sh : Shot) : Shot := if sh.owner = m then { sh with orphan := true } else sh

/-- A port after the reset of master `m`: m's passes are gone from the queue and the plan, a shot of m leaves
the pending slot without a record, and one in flight is marked for its discard (R62, R63, R125, R167). -/
def Port.purge (m : Master) (q : Port) : Port :=
  { q with
    queue := q.queue.filter (·.owner != m)
    plan := q.plan.filter fun e => (q.findPass e.tag).any (·.owner != m)
    slot := q.slot.filter (·.owner != m)
    exchange := q.exchange.map fun ex => { ex with shot := ex.shot.orphaned m } }

/-- A SHOT or SWEEP test whose recipient is `m` ends, with TEST_END on the port's controller as the claim stands (R167,
step 2 of R187), which may be another master. The last paragraph of R187 says that other masters' flags are untouched apart
from steps 5 and 6: the model follows R167 and step 2 (log 43). -/
def endTestOf (m : Master) (p : PortId) (s : State) : State :=
  match (s.port p).test with
  | some t => if t.mode.fires && t.recipient == m then endTest p .ready s else s
  | none => s

/-- The interface of the link after steps 3 and 4 of R187; the transaction under way goes on. -/
def Link.cleared (l : Link) : Link :=
  { l with
    records := [], reserved := 0, flags := 0, enables := 0, attention := false, abandoned := 0, repeats := none }

/-- A claim after the reset of master `m`, and the master that CLAIM is raised on (R154). -/
def claimReset (m : Master) (c : Claim) : Claim × Option Master :=
  match c with
  | .free => (c, none)
  | .held h => (if h = m then .free else c, none)
  | .handover h n _ =>
    if h = m then (.held n, some n) else if n = m then (.held h, none) else (c, none)

/-- Claim `c` after the reset of master `m`, with its notice (R154). -/
def resetClaim (m : Master) (c : ClaimId) (s : State) : State :=
  let r := claimReset m (s.claim c)
  let s := s.setClaim c r.1
  match r.2 with
  | some n => raise .claim n s
  | none => s

/-- LINK_RESET of master `m`, in the order of R187. Step 2 can raise TEST_END on another master (log 43). -/
def linkResetSteps (m : Master) (s : State) : State :=
  let s := eachPort (fun p s => s.modPort p (Port.purge m)) s
  let s := eachPort (endTestOf m) s
  let s := s.modLink m Link.cleared
  let s := allClaims.foldl (fun s c => resetClaim m c s) s
  syncStall (changePermit (setHold m false) s)

/-- LINK_RESET is answered OK from any master (R187). -/
def linkReset (m : Master) (s : State) : Answer := ⟨.ok, [], linkResetSteps m s⟩

/-- LINK_RESET (R187). -/
def execLinkReset (m : Master) (s : State) : Result := .next (request m 0x5F [] (linkReset m) s)

end Sys2Proof.Machine
end

