-- ==== Sys2Proof/Machine/PassRequests.lean ====
section
/-! DEFINITION. The meanings of the requests of the Pass Manager (chapter 3). -/

namespace Sys2Proof.Machine

/-! ### REPEAT (R47) -/

/-- The range check of REPEAT and its prefix: 1..16. -/
def setRepeats (m : Master) (value : Byte) (s : State) : Answer :=
  if within 1 16 value.toNat then ⟨.ok, [], s.modLink m fun l => { l with repeats := some value.toNat }⟩
  else refuse .range s

/-- REPEAT (R47). -/
def execRepeatNext (m : Master) (value : Byte) (s : State) : Result :=
  .next (request m 0x40 [value] (setRepeats m value) s)

/-! ### SUBMIT_PASS (R45, R46) -/

/-- A refused submission: tag FF, shot count and repeats 0 (R45, R189), also when it names a port above 3, of which
R189 says M 0 as well: the model's choice, log 39. -/
def refusePass (status : Status) (s : State) : Answer := ⟨status, [0xFF, 0, 0], s⟩

/-- The record of a new pass (R46). -/
def newPass (m : Master) (r : SubmitParams) (sub : Submission) (n repeats : Nat) (tag : Tag) : Pass where
  tag := tag
  owner := m
  blade := r.blade
  dir := sub.dir
  step := sub.step
  n := n
  len := sub.len
  seeded := optionSeeded r.options
  edge := optionEdge r.options
  follow := optionFollow r.options
  repeats := repeats
  revsDone := 0
  fired := 0
  clean := 0
  flagged := 0
  marks := Marks.none
  flags := PassFlags.none
  lastEdge := none
  state := .queued
  pendingOutcome := none
  observation := if optionEdge r.options then .empty else .absent

/-- The pass joins the tail of its port queue and reserves its pass-end entry (R46). -/
def admitPass (p : PortId) (x : Pass) (s : State) : State :=
  reserve x.owner 1 (s.modPort p fun q => { q with queue := q.queue ++ [x] })

/-- The checks of R45 that need no result entry and no tag: the submission, its shot count, or the status. R31 says that in
EDIT a submission is refused WRONG_STATE and that the other checks follow in ACTIVE; the table of R45 puts the range check
before the plan state, and the model follows it: out of range in EDIT is RANGE (log 44). -/
def checkSubmission (r : SubmitParams) (s : State) : Except Status (Submission × Nat) :=
  match readSubmission r with
  | none => .error .range
  | some sub =>
    if s.plan.state ≠ .active then .error .wrongState
    else if (s.port sub.port).state ≠ .ready then .error .wrongState
    else
      match s.plan.find r.blade with
      | none => .error .noSuchBlade
      | some b =>
        let n := shotCount b sub.step sub.limit
        if b.excluded then .error .excluded
        else if optionEdge r.options && (decide (sub.len < 6) || b.mark.isNone) then .error .range
        else if Config.maxShots < n then .error .tooManyShots
        else if Config.queueSize ≤ (s.port sub.port).queue.length then .error .queueFull
        else .ok (sub, n)

/-- The checks and the effect of SUBMIT_PASS (R45, R46). A free tag is always found for an accepted submission
(R42). -/
def submitPass (m : Master) (r : SubmitParams) (repeats : Nat) (s : State) : Answer :=
  match checkSubmission r s with
  | .error status => refusePass status s
  | .ok (sub, n) =>
    if !(s.link m).fits 1 then refusePass .resultFull s
    else
      match s.lowestTag with
      | none => refusePass .queueFull s
      | some tag =>
        ⟨.ok, [byteOf tag.val, byteOf n, byteOf repeats], admitPass sub.port (newPass m r sub n repeats tag) s⟩

/-- SUBMIT_PASS (R45); its repeats are the link's prefix as it stood, or 1 (R47). -/
def execSubmitPass (m : Master) (pass : SubmitParams) (s : State) : Result :=
  .next (request m 0x41 (submitParams pass) (submitPass m pass ((s.link m).repeats.getD 1)) s)

/-! ### ABORT_PASS (R58, R59) and QUERY_PASS (R60) -/

/-- The live pass that a tag byte names with its port, or the status: RANGE, then NO_SUCH_PASS (R58, R60). -/
def namedPass (tag : Byte) (s : State) : Except Status (PortId × Pass) :=
  match readTag tag with
  | none => .error .range
  | some t =>
    match s.portOfTag t with
    | none => .error .noSuchPass
    | some p =>
      match s.findPass p t with
      | none => .error .noSuchPass
      | some x => .ok (p, x)

/-- The checks and the effect of ABORT_PASS (R58): the reply carries the state the abort was taken in, and 1
when the pass has ended. -/
def abortPass (m : Master) (tag : Byte) (s : State) : Answer :=
  match namedPass tag s with
  | .error status => refuse status s
  | .ok (p, x) =>
    if x.owner ≠ m then refuse .notHolder s
    else
      let s := syncStall (failPass p x.tag .aborted s)
      ⟨.ok, [byteOf x.state.code, byteOf (flagBit (s.findPass p x.tag).isNone 0)], s⟩

/-- ABORT_PASS (R58). -/
def execAbortPass (m : Master) (tag : Byte) (s : State) : Result :=
  .next (request m 0x42 [tag] (abortPass m tag) s)

/-- The place of a tag in a port queue, 0 at the oldest (R60). -/
def Port.place (q : Port) (t : Tag) : Nat := q.queue.findIdx (·.tag == t)

/-- The reply data of QUERY_PASS (R60, 12.3); an absent pending outcome reads 00 with reason NONE. -/
def Pass.bytes (x : Pass) (p : PortId) (place : Nat) : List Byte :=
  [byteOf x.owner.val, byteOf p.val, x.blade, byteOf x.dir.code]
    ++ leBytes 2 x.step ++ [byteOf x.n, byteOf x.len, x.options, byteOf x.repeats, byteOf x.revsDone]
    ++ leBytes 2 x.fired ++ leBytes 2 x.clean ++ leBytes 2 x.flagged
    ++ [passFlagsByte x.flags x.lastEdge, byteOf x.state.code,
        byteOf ((x.pendingOutcome.map PassOutcome.code).getD 0),
        byteOf ((x.pendingOutcome.map PassOutcome.reasonCode).getD 0), byteOf place]

/-- The checks and the answer of QUERY_PASS (R60). -/
def queryPass (tag : Byte) (s : State) : Answer :=
  match namedPass tag s with
  | .error status => refuse status s
  | .ok (p, x) => ⟨.ok, x.bytes p ((s.port p).place x.tag), s⟩

/-- QUERY_PASS (R60). -/
def execQueryPass (m : Master) (tag : Byte) (s : State) : Result :=
  .next (request m 0x43 [tag] (queryPass tag) s)

end Sys2Proof.Machine
end

