-- ==== Sys2Proof/Machine/PermitEvents.lean ====
section
/-! DEFINITION. The meanings of the events of the interlock line, the qualification timer and the handover
timers (8.2, 9.3). -/

namespace Sys2Proof.Machine

/-- INTLK_ASSERTED: in BLOCKED, to QUALIFYING with the whole of QUAL_TIME (R140). It does not arise in the other
states. -/
def execIntlkAsserted (s : State) : Result :=
  match s.permit.qualification with
  | .blocked =>
    .next (changePermit (fun u => { u with qualification := .qualifying, timer := startMillis u.qualTime }) s)
  | .qualifying | .lineOk => .next s

/-- INTLK_DEASSERTED: to BLOCKED, the timer stopped (R140). It does not arise in BLOCKED. -/
def execIntlkDeasserted (s : State) : Result :=
  match s.permit.qualification with
  | .blocked => .next s
  | .qualifying | .lineOk =>
    .next (changePermit (fun u => { u with qualification := .blocked, timer := .stopped }) s)

/-- QUALIFICATION_TIMER_EXPIRY: in QUALIFYING, the timer having run out, to LINE_OK, the timer stopped (R140). It does not
arise in the other states. -/
def execQualificationTimerExpiry (s : State) : Result :=
  match s.permit.qualification with
  | .qualifying =>
    if s.permit.timer.isOut then
      .next (changePermit (fun u => { u with qualification := .lineOk, timer := .stopped }) s)
    else .next s
  | .blocked | .lineOk => .next s

/-- HANDOVER_EXPIRY: the handover timer has run out; the claim becomes the claimant's, and CLAIM is raised on both (R153).
The expiry of a timer that has been stopped, or started anew, does not happen. -/
def execHandoverExpiry (c : ClaimId) (s : State) : Result :=
  match s.claim c with
  | .handover m n 0 => .next (raise .claim n (raise .claim m (s.setClaim c (.held n))))
  | .handover _ _ (_ + 1) | .free | .held _ => .next s

end Sys2Proof.Machine
end

