-- ==== Sys2Proof/Machine/TestEvents.lean ====
section
/-! DEFINITION. The meanings of the events of the port test modes (chapter 10). -/

namespace Sys2Proof.Machine

/-- The interval timer of a SHOT test restarted with INTERVAL (R162). -/
def Test.restart (t : Test) : Test :=
  match t.mode with
  | .shot len interval _ => { t with mode := .shot len interval (startMillis interval) }
  | .sweep .. | .pattern _ => t

/-- Whether the interval timer of a SHOT test has run out. -/
def Test.isDue (t : Test) : Bool :=
  match t.mode with
  | .shot _ _ timer => timer.isOut
  | .sweep .. | .pattern _ => false

/-- INTERVAL_TIMER_EXPIRY: the interval timer has run out; a test shot is due and the timer restarts (R162, R164). -/
def execIntervalTimerExpiry (p : PortId) (s : State) : Result :=
  if (s.port p).test.any Test.isDue then .next (modTest p Test.restart (dueTestShot p s)) else .next s

/-- The running PATTERN test of a port, when it is in a phase. -/
def Port.patternIn (q : Port) (phase : PatternPhase) : Option (Test × Pattern) :=
  match q.test with
  | some t =>
    match t.mode with
    | .pattern pt => if pt.phase = phase then some (t, pt) else none
    | .shot .. | .sweep .. => none
  | none => none

/-- The running PATTERN test of a port, when it is in a phase and what it sends in it has gone out to the end of its last
stop bit (R104). -/
def Port.patternSent (q : Port) (phase : PatternPhase) : Option (Test × Pattern) :=
  (q.patternIn phase).filter fun x => x.2.sendTimer.isOut

/-- A read-back mismatch of an ECHO_ON or ECHO_OFF frame, counted once for the frame (R168, R172), at the end of the
frame: the rules give no moment, and this one is the model's choice (log 37). A frame that reads back correctly ends with
its stop bits, in which the line is high (R121). -/
def Port.countMismatch (mismatch : Bool) (q : Port) : Port :=
  if mismatch then { q with linkErrors := saturate 255 q.linkErrors } else q.seenHigh

/-- Replace the state of a PATTERN test. -/
def Port.setPattern (t : Test) (pt : Pattern) (q : Port) : Port := { q with test := some { t with mode := .pattern pt } }

/-- ECHO_ON_SENT: the stream starts, or the ECHO_OFF frame when stopping is set (R168, R172). -/
def execEchoOnSent (p : PortId) (mismatch : Bool) (s : State) : Result :=
  match (s.port p).patternSent .echoOn with
  | some (t, pt) =>
    let pt :=
      if pt.stopping then ({ pt with phase := .echoOff, sending := echoFrame .echoOff p s } : Pattern).send (s.port p).cfg 4
      else ({ pt with phase := .byte, sending := [] } : Pattern).send (s.port p).cfg 1
    .next (s.modPort p fun q => (q.countMismatch mismatch).setPattern t pt)
  | none => .next s

/-- PATTERN_BYTE_SENT: with INTERNAL the eight data bits go to the checker inside the part, the line is not driven
(R168), and the next byte follows; with ECHO the byte has gone out on the line and the wait for its echo begins
(R169). The eight bits were sent one by one, each as it began (`Pattern.sendDue`). -/
def execPatternByteSent (p : PortId) (s : State) : Result :=
  match (s.port p).patternSent .byte with
  | some (t, pt) =>
    match pt.loop with
    | .internal => .next (s.modPort p (Port.feedChecker pt.bits t (pt.send (s.port p).cfg 1)))
    | .echo =>
      .next (s.modPort p fun q =>
        q.setPattern t
          { pt with
            sending := [byteOfBits pt.bits], bits := [], sendTimer := .stopped, phase := .echo,
            echoTimer := startBits 20 q.cfg.bitTime })
  | none => .next s

/-- PATTERN_ECHO_RECEIVED: the echo's data bits go to the checker and the next byte starts (R169). The line was high before
the echo's start bit (R104) and in each of its 1 bits, so a low run can only have begun after the last of them (R121). -/
def execPatternEchoReceived (p : PortId) (echo : Byte) (s : State) : Result :=
  match (s.port p).patternIn .echo with
  | some _ => .next (echoDone p (bitsOfByte echo) (s.modPort p (Port.highWithin (lowTail echo))))
  | none => .next s

/-- ECHO_MISSING: the 20 bit times of the wait have run out; the checker receives eight 1 bits and the next byte starts
(R169). -/
def execEchoMissing (p : PortId) (s : State) : Result :=
  match (s.port p).patternIn .echo with
  | some (_, pt) => if pt.echoTimer.isOut then .next (echoDone p (List.replicate 8 true) s) else .next s
  | none => .next s

/-- The checker state after a block is judged (R170). -/
def judge (checker : CheckerState) (errors : Nat) : CheckerState :=
  match checker with
  | .hunting => if errors ≤ 2 then .synced else .hunting
  | .synced => if 8 ≤ errors then .hunting else .synced

/-- A block of 64 compared bits is judged, a change of the checker state raises PATTERN on the controller, and
the checker goes on with the bits that waited (R170, log 14). -/
def judgeBlock (p : PortId) (t : Test) (pt : Pattern) (s : State) : State :=
  let before := (s.port p).checker
  let after := judge before pt.blockErrors
  let s := s.modPort p fun q =>
    ({ q with checker := after } : Port).feedChecker [] t { pt with blockBits := 0, blockErrors := 0 }
  if after = before then s else raiseController .pattern p s

/-- PATTERN_BLOCK_JUDGED: block bits has reached 64 (R170). -/
def execPatternBlockJudged (p : PortId) (s : State) : Result :=
  match (s.port p).test with
  | some t =>
    match t.mode with
    | .pattern pt => if pt.blockBits = 64 then .next (judgeBlock p t pt s) else .next s
    | .shot .. | .sweep .. => .next s
  | none => .next s

/-- ECHO_OFF_SENT: the PATTERN test ends, the port becomes READY and TEST_END is raised (R172). -/
def execEchoOffSent (p : PortId) (mismatch : Bool) (s : State) : Result :=
  match (s.port p).patternSent .echoOff with
  | some _ => .next (endTest p .ready (s.modPort p (Port.countMismatch mismatch)))
  | none => .next s

end Sys2Proof.Machine
end

