-- ==== Sys2Proof/Machine/Dispatch.lean ====
section
/-! DEFINITION. The effect of a command on everything but the queue: one arm per row of the command table. -/

namespace Sys2Proof.Machine

def exec (i : Instr) (s : State) : Host.Outcome State Fault Refusal :=
  match i with
  | .powerOnReset encA encB intlk sel0 sel1 sel2 => Sys2Proof.Machine.execPowerOnReset encA encB intlk sel0 sel1 sel2 s
  | .decodedCount move encZ => Sys2Proof.Machine.execDecodedCount move encZ s
  | .quadratureError => Sys2Proof.Machine.execQuadratureError s
  | .stallTimerExpiry => Sys2Proof.Machine.execStallTimerExpiry s
  | .trigPulseEnd p => Sys2Proof.Machine.execTrigPulseEnd p s
  | .tagFrameSent p => Sys2Proof.Machine.execTagFrameSent p s
  | .readBackError p => Sys2Proof.Machine.execReadBackError p s
  | .returnFrameReceived p bytes => Sys2Proof.Machine.execReturnFrameReceived p bytes s
  | .returnByteFrameError p => Sys2Proof.Machine.execReturnByteFrameError p s
  | .returnTimeout p => Sys2Proof.Machine.execReturnTimeout p s
  | .strayByte p => Sys2Proof.Machine.execStrayByte p s
  | .lineStuck p => Sys2Proof.Machine.execLineStuck p s
  | .wakePulseEnd p => Sys2Proof.Machine.execWakePulseEnd p s
  | .readyReturn p bytes => Sys2Proof.Machine.execReadyReturn p bytes s
  | .wakeTimeout p => Sys2Proof.Machine.execWakeTimeout p s
  | .intervalTimerExpiry p => Sys2Proof.Machine.execIntervalTimerExpiry p s
  | .echoOnSent p mismatch => Sys2Proof.Machine.execEchoOnSent p mismatch s
  | .patternByteSent p => Sys2Proof.Machine.execPatternByteSent p s
  | .patternEchoReceived p echo => Sys2Proof.Machine.execPatternEchoReceived p echo s
  | .echoMissing p => Sys2Proof.Machine.execEchoMissing p s
  | .patternBlockJudged p => Sys2Proof.Machine.execPatternBlockJudged p s
  | .echoOffSent p mismatch => Sys2Proof.Machine.execEchoOffSent p mismatch s
  | .intlkAsserted => Sys2Proof.Machine.execIntlkAsserted s
  | .intlkDeasserted => Sys2Proof.Machine.execIntlkDeasserted s
  | .qualificationTimerExpiry => Sys2Proof.Machine.execQualificationTimerExpiry s
  | .handoverExpiry c => Sys2Proof.Machine.execHandoverExpiry c s
  | .selectAsserted m => Sys2Proof.Machine.execSelectAsserted m s
  | .selectDeasserted m clocked => Sys2Proof.Machine.execSelectDeasserted m clocked s
  | .unknownRequestCode m code params => Sys2Proof.Machine.execUnknownRequestCode m code params s
  | .requestBadCheck m code params check => Sys2Proof.Machine.execRequestBadCheck m code params check s
  | .requestBadLength m code length rest => Sys2Proof.Machine.execRequestBadLength m code length rest s
  | .putBlade m image => Sys2Proof.Machine.execPutBlade m image s
  | .dropBlade m blade => Sys2Proof.Machine.execDropBlade m blade s
  | .readBlade m selector value => Sys2Proof.Machine.execReadBlade m selector value s
  | .openPlan m => Sys2Proof.Machine.execOpenPlan m s
  | .activatePlan m => Sys2Proof.Machine.execActivatePlan m s
  | .setAngleConfig m write => Sys2Proof.Machine.execSetAngleConfig m write s
  | .setAdapt m write => Sys2Proof.Machine.execSetAdapt m write s
  | .resetCorrection m scope blade => Sys2Proof.Machine.execResetCorrection m scope blade s
  | .setPermitConfig m write => Sys2Proof.Machine.execSetPermitConfig m write s
  | .claim m name => Sys2Proof.Machine.execClaim m name s
  | .release m name => Sys2Proof.Machine.execRelease m name s
  | .take m name => Sys2Proof.Machine.execTake m name s
  | .decline m name => Sys2Proof.Machine.execDecline m name s
  | .portOn m port => Sys2Proof.Machine.execPortOn m port s
  | .portOff m port force => Sys2Proof.Machine.execPortOff m port force s
  | .resumePort m port => Sys2Proof.Machine.execResumePort m port s
  | .setPortConfig m port write => Sys2Proof.Machine.execSetPortConfig m port write s
  | .readPortCounters m port => Sys2Proof.Machine.execReadPortCounters m port s
  | .startTest m port test => Sys2Proof.Machine.execStartTest m port test s
  | .stopTest m port => Sys2Proof.Machine.execStopTest m port s
  | .insertError m port => Sys2Proof.Machine.execInsertError m port s
  | .repeatNext m value => Sys2Proof.Machine.execRepeatNext m value s
  | .submitPass m pass => Sys2Proof.Machine.execSubmitPass m pass s
  | .abortPass m tag => Sys2Proof.Machine.execAbortPass m tag s
  | .queryPass m tag => Sys2Proof.Machine.execQueryPass m tag s
  | .hold m => Sys2Proof.Machine.execHold m s
  | .unhold m => Sys2Proof.Machine.execUnhold m s
  | .fetch m => Sys2Proof.Machine.execFetch m s
  | .clearNotices m mask => Sys2Proof.Machine.execClearNotices m mask s
  | .setNoticeEnable m write => Sys2Proof.Machine.execSetNoticeEnable m write s
  | .readStatus m => Sys2Proof.Machine.execReadStatus m s
  | .scanReset m => Sys2Proof.Machine.execScanReset m s
  | .linkReset m => Sys2Proof.Machine.execLinkReset m s

end Sys2Proof.Machine
end

