-- ==== Sys2Proof/Machine/Requests.lean ====
section
/-! DEFINITION. The table of requests (12.3): for each request command the link it arrives on, its code and its
parameter bytes. -/

namespace Sys2Proof.Machine

/-- The link, the code and the parameter bytes of a request command; none for an event and for the frames that
are not taken. -/
def requestOf : Instr → Option (Master × Byte × List Byte)
  | .putBlade m im => some (m, 0x10, bladeParams im)
  | .dropBlade m b => some (m, 0x11, [b])
  | .readBlade m sel v => some (m, 0x12, [sel, v])
  | .openPlan m => some (m, 0x13, [])
  | .activatePlan m => some (m, 0x14, [])
  | .setAngleConfig m w => some (m, 0x15, angleParams w)
  | .setAdapt m w => some (m, 0x16, adaptParams w)
  | .resetCorrection m sc b => some (m, 0x17, [sc, b])
  | .setPermitConfig m w => some (m, 0x18, permitParams w)
  | .claim m c => some (m, 0x20, [c])
  | .release m c => some (m, 0x21, [c])
  | .take m c => some (m, 0x22, [c])
  | .decline m c => some (m, 0x23, [c])
  | .portOn m p => some (m, 0x30, [p])
  | .portOff m p f => some (m, 0x31, [p, f])
  | .resumePort m p => some (m, 0x32, [p])
  | .setPortConfig m p w => some (m, 0x33, portParams p w)
  | .readPortCounters m p => some (m, 0x34, [p])
  | .startTest m p t => some (m, 0x35, testParams p t)
  | .stopTest m p => some (m, 0x36, [p])
  | .insertError m p => some (m, 0x37, [p])
  | .repeatNext m v => some (m, 0x40, [v])
  | .submitPass m r => some (m, 0x41, submitParams r)
  | .abortPass m t => some (m, 0x42, [t])
  | .queryPass m t => some (m, 0x43, [t])
  | .hold m => some (m, 0x48, [])
  | .unhold m => some (m, 0x49, [])
  | .fetch m => some (m, 0x50, [])
  | .clearNotices m k => some (m, 0x51, [k])
  | .setNoticeEnable m w => some (m, 0x52, enableParams w)
  | .readStatus m => some (m, 0x53, [])
  | .scanReset m => some (m, 0x5E, [])
  | .linkReset m => some (m, 0x5F, [])
  | .powerOnReset .. | .decodedCount .. | .quadratureError | .stallTimerExpiry | .trigPulseEnd _
  | .tagFrameSent _ | .readBackError _ | .returnFrameReceived .. | .returnByteFrameError _ | .returnTimeout _
  | .strayByte _ | .lineStuck _ | .wakePulseEnd _ | .readyReturn .. | .wakeTimeout _ | .intervalTimerExpiry _
  | .echoOnSent .. | .patternByteSent _ | .patternEchoReceived .. | .echoMissing _ | .patternBlockJudged _
  | .echoOffSent .. | .intlkAsserted | .intlkDeasserted | .qualificationTimerExpiry | .handoverExpiry _
  | .selectAsserted _ | .selectDeasserted .. | .unknownRequestCode .. | .requestBadCheck ..
  | .requestBadLength .. => none

end Sys2Proof.Machine
end

