-- ==== Sys2Proof/Safety.lean ====
section
/-! DEFINITION. What counts as a sound state of the part, as properties that every step keeps, and the terms in
which the statements speak of replies. -/

namespace Sys2Proof.Machine

/-! ### Replies -/

/-- Link `l` after a request taken on it has been answered: the repeat prefix consumed, the reply formed, and
the two turnaround bytes to come (R47, R175). -/
def Link.answered (l : Link) (frame : List Byte) (status : Status) (data : List Byte) : Link :=
  { l with
    repeats := none, phase := .turnaround, request := frame, turnaround := 2, reply := replyFrame status data }

/-- The state in which the request with a code and parameters has been answered on link `m`, and nothing else
has changed. -/
def State.answered (s : State) (m : Master) (code : Byte) (params : List Byte) (status : Status)
    (data : List Byte) : State :=
  s.modLink m (·.answered (requestFrame code params) status data)

/-- Link `m` waits for a request. -/
abbrev State.listens (s : State) (m : Master) : Prop := (s.link m).phase = .request

/-! ### What an event comes to -/

/-- Each of the four ports has taken an event in `s`, one port after another in some order, which leaves `t`; how many
free order choices have been made is left open (R85, log 7). -/
def State.takenByPorts (f : PortId → State → State) (s t : State) : Prop :=
  ∃ order n, order.Perm allPorts ∧ t = { takeInOrder f order s with choices := n }

/-- Pass `x` of port `p` in `s` has ended in `t` with an outcome: it has left its queue, and its pass-end record is one
of those that its owner has gained (R56, R57). -/
abbrev State.endedWith (s t : State) (outcome : PassOutcome) (p : PortId) (x : Pass) : Prop :=
  t.findPass p x.tag = none
    ∧ (s.link x.owner).records <+: (t.link x.owner).records
    ∧ .passEnd (passEndRecord p x outcome) ∈ (t.link x.owner).records.drop (s.link x.owner).records.length

/-- A failure has reached pass `x` of port `p` of `s`, as `t` shows it: OPEN or DRAINING with an exchange in flight, it
drains with the outcome FAILED pending; otherwise it has ended with that outcome (R54). -/
abbrev State.failedWith (s t : State) (reason : Reason) (p : PortId) (x : Pass) : Prop :=
  if (x.state = .opened ∨ x.state = .draining) ∧ (s.port p).inFlight x.tag = true then
    ((t.findPass p x.tag).map fun y => (y.state, y.pendingOutcome)) = some (.draining, some (.failed reason))
  else s.endedWith t (.failed reason) p x

/-- Every live pass of port `p` of `s` has ended in `t` behind the exchange that a fault or a forced PORT_OFF ended: with
its pending outcome where it had one, else FAILED with a reason (R54, R55, R110, R112). Of a DRAINING pass that had only
that exchange outstanding and no pending outcome it is not said which (log 36). -/
abbrev State.allEndedWith (s t : State) (reason : Reason) (p : PortId) : Prop :=
  (t.port p).queue = [] ∧ ∀ x ∈ (s.port p).queue,
    (∀ o, x.pendingOutcome = some o → s.endedWith t o p x)
      ∧ (x.pendingOutcome = none → (x.state ≠ .draining ∨ (s.port p).inFlight x.tag = false
          ∨ (s.port p).isPending x.tag = true) → s.endedWith t (.failed reason) p x)

/-- A pass with a pending outcome waits for its exchange in flight alone (R54). -/
abbrev Port.outcomesWait (q : Port) : Prop :=
  ∀ x ∈ q.queue, x.pendingOutcome ≠ none → q.inFlight x.tag = true ∧ q.isPending x.tag = false

/-- A timer started with the time of a number of bytes that the part sends back to back at the settings of port `q`: their
start bit, eight data bits and STOP_BITS stop bits each, every byte a whole number of reference periods (R104; log 42). -/
def Port.sendTime (q : Port) (bytes : Nat) : Timer :=
  .running (bytes * ((9 + q.cfg.stopBits) * (16 * q.cfg.divisor + q.cfg.fraction) / 16))

/-- What port `p` of `s` goes on to in `t` after an exchange has ended by itself (R118, steps 2 to 4): FAULT with reason
ERRORS when an errored ending brings the consecutive-error count to ERR_LIMIT or beyond, with PORT_FAULT on the
controller and the pending shot not started; else the pending shot's exchange, or none. -/
def State.goesOn (s t : State) (errored : Bool) (p : PortId) : Prop :=
  let q := s.port p
  let u := t.port p
  if errored = true ∧ q.cfg.errLimit ≠ 0 ∧ q.cfg.errLimit ≤ u.consecutive then
    u.state = .fault ∧ u.fault = .errors ∧ u.exchange = none ∧ u.test = none
      ∧ ∀ m, s.controller p = some m → (t.link m).flags.getLsbD 5 = true
  else
    u.state = q.state ∧ u.fault = q.fault ∧ u.test = q.test ∧ u.slot = none
      ∧ u.exchange = q.slot.map fun sh =>
          { shot := sh, frame := sh.frame, sendTimer := q.sendTime 4, phase := .sending, received := []
            timer := .stopped, bitTime := q.cfg.bitTime, stopBits := q.cfg.stopBits, rto := q.cfg.rto }

/-- Link `l` after a record has been written into an entry reserved for it: the record is the youngest, one entry has
passed from reserved to held, and the notices of a mask stand (R179, R184). -/
def Link.written (l : Link) (r : Record) (mask : Byte) : Link :=
  { l with
    records := l.records ++ [r], reserved := l.reserved - 1, flags := l.flags ||| mask
    attention := ((l.flags ||| mask) &&& l.enables) != 0 }

/-! ### Positions of a sweep (R163 to R165) -/

/-- Angle `x` is ahead of angle `a` in a direction, without passing the origin; or at it, when `at_` is true. -/
def aheadOf (d : Direction) (at_ : Bool) (a x : Nat) : Prop :=
  match d with
  | .forward => if at_ then a ≤ x else a < x
  | .reverse => if at_ then x ≤ a else x < a

/-- `next` is the first multiple of STEP in 0..CPR−1 that is ahead of an angle, or at it when `at_` is true; none when
there is no such multiple. -/
def firstMultiple (d : Direction) (at_ : Bool) (step cpr a : Nat) (next : Option Nat) : Prop :=
  match next with
  | some x => (x % step = 0 ∧ x < cpr ∧ aheadOf d at_ a x)
      ∧ ∀ y, y % step = 0 → y < cpr → aheadOf d at_ a y → aheadOf d true x y
  | none => ∀ y, y % step = 0 → y < cpr → ¬ aheadOf d at_ a y

/-! ### What a command belongs to -/

/-- The head port whose line, timer or transmitter an event comes from. -/
def eventPort : Instr → Option PortId
  | .trigPulseEnd p | .tagFrameSent p | .readBackError p | .returnFrameReceived p _ | .returnByteFrameError p
  | .returnTimeout p | .strayByte p | .lineStuck p | .wakePulseEnd p | .readyReturn p _ | .wakeTimeout p
  | .intervalTimerExpiry p | .echoOnSent p _ | .patternByteSent p | .patternEchoReceived p _ | .echoMissing p
  | .patternBlockJudged p | .echoOffSent p _ => some p
  | _ => none

/-- What a link holds beside its records, its reserved count, its flags and its line: the transaction, the
enables, the abandoned count and the repeat prefix. -/
def Link.transaction (l : Link) : Link := { l with records := [], reserved := 0, flags := 0, attention := false }

/-! ### Sound states -/

/-- The attention line of a link follows its flags and enables (R184). -/
abbrev Link.lineDriven (l : Link) : Prop := l.attention = ((l.flags &&& l.enables) != 0)

/-- Every attention line follows its flags and enables (R184). -/
abbrev State.linesDriven (s : State) : Prop := ∀ m, (s.link m).lineDriven

/-- No trigger line is ACTIVE while the permit is NOT_PERMITTED (R99). -/
abbrev State.darkUnlessPermitted (s : State) : Prop :=
  s.permit.permit = .notPermitted → ∀ p, (s.port p).trigger = false

/-- The permit is the one that the qualification state and the hold set decide (R143). -/
abbrev State.permitDecided (s : State) : Prop := s.permit.permit = s.permit.decided

/-- In HANDOVER the claimant differs from the holder (R147). -/
abbrev Claim.sound (c : Claim) : Prop := ∀ m, c.claimant? = some m → c.holder? ≠ some m

/-- Every claim is sound (R147). -/
abbrev State.claimsSound (s : State) : Prop := ∀ c, (s.claim c).sound

/-- An entry keeps the conditions of R23 for a CPR. -/
abbrev Blade.inRange (cpr : Nat) (b : Blade) : Prop :=
  1 ≤ b.start ∧ b.start < b.close ∧ b.close ≤ cpr - 1
    ∧ (∀ k ∈ b.mark, b.start ≤ k ∧ k ≤ b.close)
    ∧ -2048 ≤ b.correction ∧ b.correction ≤ 2047

/-- The table order of R24: each entry stands before every later one. -/
abbrev inOrder (blades : List Blade) : Prop := blades.Pairwise fun a b => a.before b = true

/-- An angle configuration lies in the ranges of R20. -/
abbrev AngleConfig.inRange (c : AngleConfig) : Prop :=
  4096 ≤ c.cpr ∧ c.cpr ≤ 16777216 ∧ c.zeroOffset < c.cpr ∧ c.idxTol ≤ 63 ∧ 2 ≤ c.lockRevs ∧ c.lockRevs ≤ 8
    ∧ 1 ≤ c.slipLimit ∧ c.slipLimit ≤ 8 ∧ 1 ≤ c.revHyst ∧ c.revHyst ≤ 255
    ∧ 10 ≤ c.stallTime ∧ c.stallTime ≤ 2550 ∧ c.stallTime % 10 = 0

/-- The angle configuration in force lies in the ranges of R20. -/
abbrev State.angleConfigInRange (s : State) : Prop := s.angle.cfg.inRange

/-- The blade table keeps the conditions of R23 and the order of R24. -/
abbrev State.tableSound (s : State) : Prop :=
  s.plan.blades.length ≤ 128 ∧ (s.plan.blades.map Blade.number).Nodup ∧ inOrder s.plan.blades
    ∧ ∀ b ∈ s.plan.blades, b.inRange s.angle.cfg.cpr

/-- No two live passes hold the same tag (R42). -/
abbrev State.tagsDistinct (s : State) : Prop := (s.livePasses.map Pass.tag).Nodup

/-- The live passes hold distinct tags (R42), and a pending outcome is only on a DRAINING pass, and is ABORTED or FAILED
(R54). -/
abbrev State.passesSound (s : State) : Prop :=
  s.tagsDistinct ∧ ∀ x ∈ s.livePasses, ∀ o ∈ x.pendingOutcome, x.state = .draining ∧ o.completes = false

/-- The work of a port goes with its queue: a pending outcome waits for the exchange in flight alone (R54); only a READY
port has live passes (R45, R109, R112, R160); and a pass shot in flight or pending, its owner's link not reset since, is
of a live pass of that owner, OPEN or DRAINING (R49, R100). -/
abbrev Port.workFollows (q : Port) : Prop :=
  q.outcomesWait ∧ (q.queue ≠ [] → q.state = .ready)
    ∧ ∀ sh ∈ (q.exchange.map Exchange.shot).toList ++ q.slot.toList, sh.kind = .pass → sh.orphan = false →
        ∃ x ∈ q.queue, x.tag = sh.tag ∧ x.owner = sh.owner ∧ (x.state = .opened ∨ x.state = .draining)

/-- The work of every port goes with its queue. -/
abbrev State.workFollows (s : State) : Prop := ∀ p, (s.port p).workFollows

/-- The error counts of a port stop at their tops (R118, R122, R164, R170), and its low run is below 64, at which the
port is in FAULT, and 0 while the line is not watched (R109, R112, R121). -/
abbrev Port.countsBounded (q : Port) : Prop :=
  q.consecutive ≤ 255 ∧ q.linkErrors ≤ 255 ∧ q.testSkips ≤ 255 ∧ q.patternErrors ≤ 65535
    ∧ q.lowRun < 64 ∧ (q.watched = false → q.lowRun = 0)

/-- The counts of every port stop at their tops. -/
abbrev State.countsBounded (s : State) : Prop := ∀ p, (s.port p).countsBounded

/-- Each port queue holds at most 16 passes (R43). -/
abbrev State.queuesBounded (s : State) : Prop := ∀ p, (s.port p).queue.length ≤ 16

/-- A revolution plan keeps the conditions of R64: at most 8 entries, in increasing order of extent start, with
disjoint extents. -/
abbrev planSound (plan : List PlanEntry) : Prop :=
  plan.length ≤ 8 ∧ (∀ e ∈ plan, e.first ≤ e.last) ∧ plan.Pairwise fun a b => a.last < b.first

/-- Every revolution plan keeps the conditions of R64. -/
abbrev State.plansSound (s : State) : Prop := ∀ p, planSound (s.port p).plan

/-- The revolution plan of a port goes with its queue (R48, R64, R75, R83): the entries have distinct tags; each has
the extent of its shots (R71) and is for a pass of the queue that is PLANNED with no shot taken, or OPEN with shots left;
every PLANNED or OPEN pass has its entry; at most one pass is OPEN; and every pass has a step and a shot to fire (R44,
R45). -/
abbrev Port.planFollows (q : Port) : Prop :=
  (q.plan.map PlanEntry.tag).Nodup
    ∧ (∀ e ∈ q.plan, e.fired ≤ e.next ∧ e.next < e.n ∧ 1 ≤ e.step ∧ e.last = e.first + (e.n - 1) * e.step
        ∧ ∃ x ∈ q.queue, x.tag = e.tag ∧ ((x.state = .planned ∧ e.next = 0) ∨ x.state = .opened))
    ∧ (∀ x ∈ q.queue, x.onTable = true → ∃ e ∈ q.plan, e.tag = x.tag)
    ∧ (q.queue.filter fun x => x.state == .opened).length ≤ 1
    ∧ ∀ x ∈ q.queue, 1 ≤ x.n ∧ 1 ≤ x.step

/-- Every revolution plan goes with its port queue. -/
abbrev State.plansFollow (s : State) : Prop := ∀ p, (s.port p).planFollows

/-- The entries that a port keeps reserved in the result queue of master `m` (R78, R79): for each pass of m its
pass-end entry and those of its plan entry's unfired shots, and one for each shot of m in flight or pending whose
record will be delivered. -/
def Port.owes (m : Master) (q : Port) : Nat :=
  ((q.queue.filter (·.owner == m)).map fun x => 1 + ((q.findEntry x.tag).map fun e => e.n - e.fired).getD 0).sum
    + (if q.exchange.any fun ex => ex.shot.owner == m && !ex.shot.orphan then 1 else 0)
    + (if q.slot.any fun sh => sh.owner == m && !sh.orphan then 1 else 0)

/-- Every reserved count is the sum of what the ports keep reserved (R78, R79), and held plus reserved is at most 128
(R77). -/
abbrev State.spaceKept (s : State) : Prop :=
  ∀ m, (s.link m).reserved = (allPorts.map fun p => (s.port p).owes m).sum
    ∧ (s.link m).held + (s.link m).reserved ≤ 128

/-- A port runs a test exactly while it is in TEST (R159). -/
abbrev State.testsInTest (s : State) : Prop := ∀ p, (s.port p).test.isSome = true ↔ (s.port p).state = .test

/-- The parameters of a mode lie in the ranges of R160, and a running SWEEP has 1 to REVS revolutions left (R163). -/
def TestMode.inRange : TestMode → Bool
  | .shot len interval _ => len ∈ [2, 4, 6, 8] && decide (1 ≤ interval ∧ interval ≤ 1000)
  | .sweep len step revs phase =>
    len ∈ [2, 4, 6, 8] && decide (1 ≤ step ∧ step ≤ 65535 ∧ 1 ≤ revs ∧ revs ≤ 16)
      && match phase with
        | .waiting => true
        | .running _ _ remaining => decide (1 ≤ remaining ∧ remaining ≤ revs)
  | .pattern _ => true

/-- The pattern byte under way in a PATTERN test goes with its time: the data bits sent are as many as have begun at the
settings `c` (R104, R169, log 15). Outside a byte there are none. -/
def TestMode.byteFollows (c : PortConfig) : TestMode → Bool
  | .pattern pt =>
    match pt.phase, pt.sendTimer with
    | .byte, .running left => pt.bits.length == bitsBegun c.bitTime (byteTime c.stopBits c.bitTime - left)
    | .byte, .stopped => false
    | .echoOn, _ | .echo, _ | .echoOff, _ => pt.bits.isEmpty
  | .shot .. | .sweep .. => true

/-- Every pattern byte goes with its time. -/
abbrev State.bytesFollow (s : State) : Prop :=
  ∀ p, ∀ y ∈ (s.port p).test, y.mode.byteFollows (s.port p).cfg = true

/-- Every running test has its parameters in range. -/
abbrev State.testsInRange (s : State) : Prop := ∀ p, ∀ y ∈ (s.port p).test, y.mode.inRange = true

/-- The stall timer runs exactly while a pass is PLANNED or OPEN (R18). -/
abbrev State.stallFollows (s : State) : Prop := s.angle.stall.isRunning = s.livePasses.any Pass.onTable

/-- A step is safe when it answers a next state. -/
def Runs (s : State) : Prop := ∃ t, step s = .next t

end Sys2Proof.Machine
end

