-- ==== Sys2Proof/WellFormed.lean ====
section
/-! DEFINITION. Which commands are well formed: a command whose operands carry bytes of a frame must be the
event its row names. Every other operand is admitted at every value of its type: a parameter outside its range
is a request that the part answers with a status. -/

namespace Sys2Proof

open Sys2Proof.Machine

/-- Well-formedness of a command's operands.
- RETURN_FRAME_RECEIVED and READY_RETURN carry at least one byte and at most the nine of the longest return
  (R115).
- The three frames that are not taken fail exactly the check of R176 that their row names. -/
def Instr.wf : Instr → Bool
  | .returnFrameReceived _ bytes => decide (1 ≤ bytes.length ∧ bytes.length ≤ 9)
  | .readyReturn _ bytes => decide (1 ≤ bytes.length ∧ bytes.length ≤ 3)
  | .unknownRequestCode _ code params =>
      decide (params.length ≤ maxParams) && frameFault (requestFrame code params) == some .unknown
  | .requestBadCheck _ code params check =>
      decide (params.length ≤ maxParams) && frameFault (rawFrame code params check) == some .badCheck
  | .requestBadLength _ code length rest =>
      decide (rest.length = if length.toNat ≤ maxParams then length.toNat + 1 else 1)
        && frameFault (code :: length :: rest) == some .badLength
  | .powerOnReset .. | .decodedCount .. | .quadratureError | .stallTimerExpiry | .trigPulseEnd _
  | .tagFrameSent _ | .readBackError _ | .returnByteFrameError _ | .returnTimeout _ | .strayByte _
  | .lineStuck _ | .wakePulseEnd _ | .wakeTimeout _ | .intervalTimerExpiry _ | .echoOnSent ..
  | .patternByteSent _ | .patternEchoReceived .. | .echoMissing _ | .patternBlockJudged _ | .echoOffSent ..
  | .intlkAsserted | .intlkDeasserted | .qualificationTimerExpiry | .handoverExpiry _ | .selectAsserted _
  | .selectDeasserted .. | .putBlade .. | .dropBlade .. | .readBlade .. | .openPlan _ | .activatePlan _
  | .setAngleConfig .. | .setAdapt .. | .resetCorrection .. | .setPermitConfig .. | .claim .. | .release ..
  | .take .. | .decline .. | .portOn .. | .portOff .. | .resumePort .. | .setPortConfig ..
  | .readPortCounters .. | .startTest .. | .stopTest .. | .insertError .. | .repeatNext .. | .submitPass ..
  | .abortPass .. | .queryPass .. | .hold _ | .unhold _ | .fetch _ | .clearNotices .. | .setNoticeEnable ..
  | .readStatus _ | .scanReset _ | .linkReset _ => true

end Sys2Proof
end

