-- ==== Sys2Proof/Certificates/Slice0/Obligations.lean ====
section
/-! DEFINITION. The statements for the provers, in the order of OBLIGATIONS.json. A result is stated as the next
state that the command answers; `State.answered` says what a reply does to the link it goes out on. -/

open Sys2Proof Sys2Proof.Machine

/-! ### Steps and reset -/

/-- A step takes the command at the front of the queue: it is `exec` of that command on the queue's rest. -/
def Obligations.StepTakesFrontCommand : Prop :=
  ∀ (c : Instr) (rest : List Instr) (s : State), s.pending = c :: rest → step s = exec c { s with pending := rest }

/-- With no command waiting one reference period passes, to `u`: the timers count down, a pattern byte under way sends
the bits that begin (`tickTimers`; R169, as PatternIsGeneratedAndChecked says), and the low run of a watched line is
kept (R121). The first bit time starts with the watch and each next one where it ends, in sixteenths of a period (R104),
of the bit time then in force (R106); in one that ends the low run rises by 1 when the line is low and returns to 0 when
it is high. It is low where the part drives it low; else its level is a free value (log 17). Nothing else changes but
the count of free choices. A port whose low run reaches 64 enters FAULT with reason STUCK within the period (R121), as
LINE_STUCK says where it is the only one; no other port changes. The tick is the model's choice (log 3). -/
def Obligations.IdleStepCountsTimers : Prop :=
  ∀ s : State, s.pending = [] →
    let watched := fun (q : Port) => q.state = .ready ∨ q.state = .test ∨ (q.state = .waking ∧ q.wakePulse = .stopped)
    ∃ u : State,
      u.angle = { s.angle with stall := s.angle.stall.tick } ∧ u.plan = s.plan ∧ u.links = s.links
      ∧ u.permit = { s.permit with timer := s.permit.timer.tick } ∧ u.choices = s.choices + 1
      ∧ u.pending = [] ∧ (∀ c, u.claim c = (s.claim c).tick)
      ∧ (∀ p,
        let q := s.port p
        let bitTime := 16 * q.cfg.divisor + q.cfg.fraction
        let left := (if q.bitLeft = 0 then bitTime else q.bitLeft) - 16
        (¬ watched q → u.port p = q.tickTimers)
        ∧ (watched q → 16 ≤ left → u.port p = { q.tickTimers with bitLeft := left })
        ∧ (watched q → left < 16 → ∃ low : Bool, (q.drivesLow = true → low = true) ∧
            u.port p = { q.tickTimers with
              bitLeft := left + bitTime, lowRun := if low then q.lowRun + 1 else 0 }))
      ∧ let stuck := fun (p : PortId) => watched (u.port p) ∧ 64 ≤ (u.port p).lowRun
        ((∀ p, ¬ stuck p) → step s = .next u)
        ∧ (∀ p, stuck p → (∀ r, r ≠ p → ¬ stuck r) → step s = exec (.lineStuck p) u)
        ∧ ∃ t, step s = .next t ∧ ∀ p,
          (¬ stuck p → t.port p = u.port p)
          ∧ (stuck p → (t.port p).state = .fault ∧ (t.port p).fault = .stuck ∧ (t.port p).lowRun = 0
              ∧ (t.port p).exchange = none ∧ (t.port p).test = none)

/-- No command stops the part: each answers a next state, from every state; and so does every step. -/
def Obligations.EveryStepAnswersANextState : Prop :=
  (∀ (c : Instr) (s : State), ∃ t, exec c s = .next t) ∧ ∀ s : State, Runs s

/-- POWER_ON_RESET from any state: every block in its power-on state, the sampled levels in the decoder, the
qualification state and the links; the waiting commands stay (the model's choice, log 2). -/
def Obligations.PowerOnReset : Prop :=
  ∀ (a b i s0 s1 s2 : Bool) (s : State),
    ∃ t, exec (.powerOnReset a b i s0 s1 s2) s = .next t
      ∧ t.angle = { decoder := match a, b with
                      | false, false => .ll | true, false => .hl | true, true => .hh | false, true => .lh
                    position := 0, reference := 0, direction := .forward, reverseRun := 0, lock := .noIndex
                    goodCount := 0, slipWindow := [], suspect := false, originArmed := false, revolution := 0
                    stall := .stopped
                    cfg := { cpr := 65536, zeroOffset := 0, idxTol := 4, lockRevs := 3, slipLimit := 2
                             revHyst := 16, stallTime := 500, sense := .normal } }
      ∧ t.plan = { blades := [], state := .edit, gain := 2, frozen := false }
      ∧ t.permit = { qualification := if i then .qualifying else .blocked
                     timer := if i then .running 20000000 else .stopped
                     qualTime := 500, hold := 0, permit := .notPermitted }
      ∧ (∀ p, t.port p =
          { state := .off, fault := .none
            cfg := { divisor := 40, fraction := 0, stopBits := 1, rto := 16, errLimit := 3, trigWidth := 10
                     wakeTime := 200 }
            exchange := none, slot := none, wakePulse := .stopped, wake := .stopped, wakeBytes := []
            lowRun := 0, bitLeft := 0, consecutive := 0, linkErrors := 0, testSkips := 0, patternErrors := 0
            checker := .hunting, trigger := false, pulse := .stopped, queue := [], plan := [], test := none })
      ∧ (∀ c, t.claim c = .free)
      ∧ (∀ m, t.link m =
          { phase := .idle, request := [], turnaround := 0, reply := []
            selectHeld := match m with | 0 => s0 | 1 => s1 | 2 => s2
            records := [], reserved := 0, flags := 0, enables := 0, attention := false, abandoned := 0
            repeats := none })
      ∧ t.pending = s.pending

/-- The state right after reset is the one POWER_ON_RESET leaves with the levels of log 1, and it is sound. -/
def Obligations.ResetIsSound : Prop :=
  exec (.powerOnReset false false false false false false) State.reset = .next State.reset
    ∧ State.reset.linesDriven ∧ State.reset.darkUnlessPermitted ∧ State.reset.permitDecided
    ∧ State.reset.claimsSound ∧ State.reset.tableSound ∧ State.reset.passesSound ∧ State.reset.queuesBounded
    ∧ State.reset.plansSound ∧ State.reset.testsInTest ∧ State.reset.stallFollows ∧ State.reset.plansFollow
    ∧ State.reset.spaceKept ∧ State.reset.workFollows ∧ State.reset.countsBounded ∧ State.reset.testsInRange
    ∧ State.reset.angleConfigInRange ∧ State.reset.bytesFollow

/-! ### Invariants of every step -/

/-- Every attention line follows its flags and enables after every step (R184). -/
def Obligations.StepKeepsAttentionLines : Prop := ∀ s t, s.linesDriven → step s = .next t → t.linesDriven

/-- The permit is the one its two inputs decide (R143), and no trigger line is ACTIVE while it is NOT_PERMITTED
(R99). -/
def Obligations.StepKeepsThePermitSound : Prop :=
  ∀ s t, s.permitDecided ∧ s.darkUnlessPermitted → step s = .next t → t.permitDecided ∧ t.darkUnlessPermitted

/-- In HANDOVER the claimant differs from the holder (R147), a test runs exactly while its port is in TEST (R159), and
its parameters stay in their ranges (R160). Of the pattern byte under way as many data bits are sent as have begun
(R104, R169; log 15). -/
def Obligations.StepKeepsClaimsAndTestsSound : Prop :=
  ∀ s t, step s = .next t →
    (s.claimsSound ∧ s.testsInTest → t.claimsSound ∧ t.testsInTest) ∧ (s.testsInRange → t.testsInRange)
      ∧ (s.testsInTest ∧ s.bytesFollow → t.bytesFollow)

/-- The blade table keeps its size, its ranges, its order and one entry for each number (R23, R24), and the angle
configuration its ranges (R20). -/
def Obligations.StepKeepsTableSound : Prop :=
  ∀ s t, step s = .next t → (s.tableSound → t.tableSound) ∧ (s.angleConfigInRange → t.angleConfigInRange)

/-- No two live passes hold one tag (R42), and only a DRAINING pass has a pending outcome, ABORTED or FAILED (R54). With
that, a pending outcome waits for its exchange in flight alone (R54), only a READY port has live passes (R112, R160), and
the pass shots in flight and pending are of live passes, OPEN or DRAINING (R49, R100). -/
def Obligations.StepKeepsPassesSound : Prop :=
  ∀ s t, s.passesSound → step s = .next t → t.passesSound ∧ (s.workFollows → t.workFollows)

/-- Each port queue holds at most 16 passes (R43), and every revolution plan at most 8 entries, in order, with
disjoint extents (R64); the error counts of each port stop at their tops (R118, R122, R164, R170), and its low run is
below 64, at which the port is in FAULT, and 0 while its line is not watched (R121). -/
def Obligations.StepKeepsQueuesAndPlansSound : Prop :=
  ∀ s t, step s = .next t →
    (s.queuesBounded ∧ s.plansSound → t.queuesBounded ∧ t.plansSound) ∧ (s.countsBounded → t.countsBounded)

/-- Revolution plans go with their port queues: an entry for each PLANNED or OPEN pass and for no other, at most one of
them OPEN (R48, R64, R75). Each master's reserved count is the sum of what its passes and its fired shots keep reserved,
and held plus reserved is at most 128, so no record meets a full queue (R77 to R80). -/
def Obligations.StepKeepsResultSpace : Prop :=
  ∀ s t, s.passesSound ∧ s.plansFollow ∧ s.spaceKept → step s = .next t → t.plansFollow ∧ t.spaceKept

/-- The stall timer runs exactly while a pass is PLANNED or OPEN (R18), where no two live passes hold one tag (R42). -/
def Obligations.StepKeepsStallFollowing : Prop :=
  ∀ s t, s.passesSound ∧ s.stallFollows → step s = .next t → t.stallFollows

/-! ### The frame -/

/-- The frame. An event of a head port leaves the other ports, the permit, the claims and the angle but its stall
timer; an event of the encoder or of the stall timer leaves the permit, the claims and the angle configuration; both
leave the plan but its entries, every link's transaction, enables, abandoned count and prefix, and the waiting
commands. A request leaves those of every other link and the waiting commands. -/
def Obligations.EventsAndRequestsKeepTheRest : Prop :=
  ∀ (i : Instr) (s t : State), exec i s = .next t →
    let kept : Prop :=
      t.permit = s.permit ∧ t.claims = s.claims ∧ t.pending = s.pending
        ∧ ({ t.plan with blades := [] } : PlanStore) = { s.plan with blades := [] }
        ∧ ∀ k, (t.link k).transaction = (s.link k).transaction
    (∀ p, eventPort i = some p →
      kept ∧ (∀ r, r ≠ p → t.port r = s.port r) ∧ t.angle = { s.angle with stall := t.angle.stall })
    ∧ ((∃ mv z, i = .decodedCount mv z) ∨ i = .quadratureError ∨ i = .stallTimerExpiry →
      kept ∧ t.angle.cfg = s.angle.cfg)
    ∧ ∀ m code params, requestOf i = some (m, code, params) →
      t.pending = s.pending ∧ ∀ k, k ≠ m → (t.link k).transaction = (s.link k).transaction

/-! ### Transactions (11.2) -/

/-- Every request taken on a listening link enters TURNAROUND with its reply formed, and every request but
REPEAT leaves the link without a repeat prefix (R47; that SCAN_RESET does too is the model's choice, log 25). After it,
in the same select period, a second request's bytes only clock the turnaround and the reply (R175). With the select
deasserted nothing is taken (the model's choice, log 9). Of the bytes clocked after the request the first two read 00,
the next ones are the reply in order, and every later one reads 00, in DONE; nothing else of the link changes (R175).
SDO carries 00 during the request and nothing in IDLE (R174, 11.2; a select held since power-on among it is the
model's choice, log 38). -/
def Obligations.OneRequestInASelectPeriod : Prop :=
  (∀ (i : Instr) (m : Master) (code : Byte) (params : List Byte) (s : State),
    requestOf i = some (m, code, params) →
      (s.listens m → ∃ t status data, exec i s = .next t
        ∧ (t.link m).phase = .turnaround ∧ (t.link m).turnaround = 2
        ∧ (t.link m).request = requestFrame code params ∧ (t.link m).reply = replyFrame status data
        ∧ (code ≠ 0x40 → (t.link m).repeats = none))
      ∧ ((s.link m).phase = .turnaround ∨ (s.link m).phase = .reply ∨ (s.link m).phase = .done →
        exec i s = .next (s.modLink m (Link.clockBytes (params.length + 3))))
      ∧ ((s.link m).phase = .idle → exec i s = .next s))
  ∧ ∀ l : Link,
    (l.phase = .request → l.output = some 0) ∧ (l.phase = .idle → l.output = none)
    ∧ (l.phase = .turnaround → l.turnaround = 2 → l.reply ≠ [] → ∀ k : Nat,
      let u := Link.clockBytes k l
      (k < 2 → u.phase = .turnaround ∧ u.output = some 0)
      ∧ (∀ j, k = 2 + j → j < l.reply.length → u.phase = .reply ∧ u.output = l.reply[j]?)
      ∧ (2 + l.reply.length ≤ k → u.phase = .done ∧ u.output = some 0)
      ∧ ({ u with phase := l.phase, turnaround := l.turnaround, reply := l.reply } : Link) = l)

/-- A frame that fails a check of R176 is answered with that check's status and M 0; nothing else changes, the
repeat prefix stands (R176, R47). -/
def Obligations.BadFramesAreAnswered : Prop :=
  ∀ (m : Master) (s : State), s.listens m →
    let answered := fun (frame : List Byte) (status : Status) =>
      s.modLink m fun l =>
        { l with phase := .turnaround, request := frame, turnaround := 2, reply := replyFrame status [] }
    (∀ code params, (Instr.unknownRequestCode m code params).wf = true →
      exec (.unknownRequestCode m code params) s = .next (answered (requestFrame code params) .unknown))
    ∧ (∀ code params check, (Instr.requestBadCheck m code params check).wf = true →
      exec (.requestBadCheck m code params check) s = .next (answered (rawFrame code params check) .badCheck))
    ∧ (∀ code length rest, (Instr.requestBadLength m code length rest).wf = true →
      exec (.requestBadLength m code length rest) s = .next (answered (code :: length :: rest) .badLength))

/-- A select asserted in IDLE starts a transaction; one held since power-on does not (R174, R175). A
deassertion returns to IDLE from any phase, and counts an abandoned request (R177). -/
def Obligations.SelectStartsAndEndsATransaction : Prop :=
  ∀ (m : Master) (s : State),
    ((s.link m).phase = .idle → (s.link m).selectHeld = false →
      exec (.selectAsserted m) s
        = .next (s.modLink m fun l => { l with phase := .request, request := [], turnaround := 0, reply := [] }))
    ∧ ((s.link m).selectHeld = true → exec (.selectAsserted m) s = .next s)
    ∧ ∀ clocked, exec (.selectDeasserted m clocked) s
        = .next (s.modLink m fun l =>
            { l with
              phase := .idle, request := [], turnaround := 0, reply := [], selectHeld := false
              abandoned := if l.phase = .request ∧ clocked = true then
                  (if l.abandoned < 255 then l.abandoned + 1 else 255) else l.abandoned })

/-- A port or claim number, or a tag, outside its range is answered RANGE with M 0 and changes nothing (R189,
R148, R58, R60). -/
def Obligations.NumbersOutOfRangeAreRefused : Prop :=
  ∀ (m : Master) (k : Byte) (s : State), s.listens m →
    (5 ≤ k.toNat →
      exec (.claim m k) s = .next (s.answered m 0x20 [k] .range [])
      ∧ exec (.release m k) s = .next (s.answered m 0x21 [k] .range [])
      ∧ exec (.take m k) s = .next (s.answered m 0x22 [k] .range [])
      ∧ exec (.decline m k) s = .next (s.answered m 0x23 [k] .range []))
    ∧ (4 ≤ k.toNat →
      exec (.portOn m k) s = .next (s.answered m 0x30 [k] .range [])
      ∧ (∀ f, exec (.portOff m k f) s = .next (s.answered m 0x31 [k, f] .range []))
      ∧ exec (.resumePort m k) s = .next (s.answered m 0x32 [k] .range [])
      ∧ (∀ w, exec (.setPortConfig m k w) s = .next (s.answered m 0x33 (portParams k w) .range []))
      ∧ exec (.readPortCounters m k) s = .next (s.answered m 0x34 [k] .range [])
      ∧ (∀ x, exec (.startTest m k x) s = .next (s.answered m 0x35 (testParams k x) .range []))
      ∧ exec (.stopTest m k) s = .next (s.answered m 0x36 [k] .range [])
      ∧ exec (.insertError m k) s = .next (s.answered m 0x37 [k] .range []))
    ∧ (64 ≤ k.toNat →
      exec (.abortPass m k) s = .next (s.answered m 0x42 [k] .range [])
      ∧ exec (.queryPass m k) s = .next (s.answered m 0x43 [k] .range []))

/-- The requests that the PLAN claim governs are refused NOT_HOLDER from any other master (R156), and those that
a port's claim governs from any master but its controller (R157); they change nothing. Which data a refusal carries
where its rule names none for it, in DROP_BLADE (the number of entries) and in RESET_CORRECTION (M 0) among them, is the
model's choice (log 18). -/
def Obligations.ControlledRequestsNeedTheirClaim : Prop :=
  ∀ (m : Master) (s : State), s.listens m →
    let refused := fun (i : Instr) (code : Byte) (params data : List Byte) =>
      exec i s = .next (s.answered m code params .notHolder data)
    let n := byteOf s.plan.blades.length
    (s.holdsPlan m = false →
      (∀ im, refused (.putBlade m im) 0x10 (bladeParams im) [n, s.plan.position im.number])
      ∧ (∀ b, refused (.dropBlade m b) 0x11 [b] [n])
      ∧ refused (.openPlan m) 0x13 [] [] ∧ refused (.activatePlan m) 0x14 [] []
      ∧ (∀ a, refused (.setAngleConfig m (some a)) 0x15 (angleParams (some a)) s.angle.cfg.bytes)
      ∧ (∀ a, refused (.setAdapt m (some a)) 0x16 [a.gain, a.freeze]
          [byteOf s.plan.gain, if s.plan.frozen then 1 else 0])
      ∧ (∀ k b, refused (.resetCorrection m k b) 0x17 [k, b] [])
      ∧ (∀ v : Half, refused (.setPermitConfig m (some v)) 0x18 (leBytes 2 v.toNat)
          (leBytes 2 s.permit.qualTime ++ [byteOf s.permit.qualification.code, byteOf s.permit.permit.code,
            byteOf s.permit.hold.toNat]))
      ∧ refused (.scanReset m) 0x5E [] [])
    ∧ ∀ p : PortId, s.controller p ≠ some m →
        let k : Byte := byteOf p.val
        refused (.portOn m k) 0x30 [k] [] ∧ (∀ f, refused (.portOff m k f) 0x31 [k, f] [])
        ∧ refused (.resumePort m k) 0x32 [k] []
        ∧ (∀ c, refused (.setPortConfig m k (some c)) 0x33 (portParams k (some c)) (s.port p).cfg.bytes)
        ∧ refused (.readPortCounters m k) 0x34 [k] []
        ∧ (∀ x, refused (.startTest m k x) 0x35 (testParams k x) [])
        ∧ refused (.stopTest m k) 0x36 [k] [] ∧ refused (.insertError m k) 0x37 [k] []

/-! ### Claims (chapter 9) -/

/-- CLAIM (R149) and TAKE (R150), in each state of the named claim; a handover starts with 2,000 ms. The reply
carries the claim after the request (R148). The time left of a running handover is in whole milliseconds, rounded by a
free value (log 6), and outside HANDOVER the reply's two time bytes are 0, the model's inference (log 40). -/
def Obligations.ClaimAndTakeByState : Prop :=
  (∀ (m : Master) (c : ClaimId) (s : State), s.listens m →
      let name : Byte := byteOf c.val
      (s.claim c = .free →
        exec (.claim m name) s
          = .next ((s.setClaim c (.held m)).answered m 0x20 [name] .ok [1, byteOf m.val, 0xFF, 0, 0]))
      ∧ (s.claim c = .held m →
        exec (.claim m name) s = .next (s.answered m 0x20 [name] .ok [1, byteOf m.val, 0xFF, 0, 0]))
      ∧ (∀ h, h ≠ m → s.claim c = .held h →
        exec (.claim m name) s = .next (s.answered m 0x20 [name] .heldByOther [1, byteOf h.val, 0xFF, 0, 0]))
      ∧ (∀ h n left, s.claim c = .handover h n left →
        exec (.claim m name) s
          = .next (s.answered m 0x20 [name] .busy ([2, byteOf h.val, byteOf n.val] ++ leBytes 2 (millisLeft left)))))
  ∧ (∀ (m : Master) (c : ClaimId) (s : State), s.listens m →
      let name : Byte := byteOf c.val
      (s.claim c = .free →
        exec (.take m name) s
          = .next ((s.setClaim c (.held m)).answered m 0x22 [name] .ok [1, byteOf m.val, 0xFF, 0, 0]))
      ∧ (s.claim c = .held m →
        exec (.take m name) s = .next (s.answered m 0x22 [name] .ok [1, byteOf m.val, 0xFF, 0, 0]))
      ∧ (∀ h, h ≠ m → s.claim c = .held h →
        exec (.take m name) s
          = .next ((raise .claim h (s.setClaim c (.handover h m 80000000))).answered m 0x22 [name] .ok
              [2, byteOf h.val, byteOf m.val, 0xD0, 0x07]))
      ∧ (∀ h n left, s.claim c = .handover h n left →
        exec (.take m name) s
          = .next (s.answered m 0x22 [name] .busy ([2, byteOf h.val, byteOf n.val] ++ leBytes 2 (millisLeft left)))))

/-- RELEASE (R151) and DECLINE (R152), from the holder and from any other master, and the expiry of the handover
timer, which gives the claim to the claimant with CLAIM raised on both once the time is out, and otherwise does not happen (R153;
log 4). The reply carries the claim after the
request (R148): a NOT_HOLDER reply in a running HANDOVER has the time left in whole milliseconds, rounded by a free value
(log 6); outside HANDOVER the two time bytes are 0, the model's inference (log 40). -/
def Obligations.HandoverEndsByItsHolder : Prop :=
  (∀ (m : Master) (c : ClaimId) (s : State), s.listens m →
      let name : Byte := byteOf c.val
      (s.claim c = .held m →
        exec (.release m name) s
          = .next ((s.setClaim c .free).answered m 0x21 [name] .ok [0, 0xFF, 0xFF, 0, 0]))
      ∧ (∀ n left, s.claim c = .handover m n left →
        exec (.release m name) s
          = .next ((raise .claim n (s.setClaim c (.held n))).answered m 0x21 [name] .ok [1, byteOf n.val, 0xFF, 0, 0]))
      ∧ ((s.claim c).holder? ≠ some m →
        exec (.release m name) s = .next (s.answered m 0x21 [name] .notHolder (s.claim c).bytes)))
  ∧ (∀ (m : Master) (c : ClaimId) (s : State), s.listens m →
      let name : Byte := byteOf c.val
      (∀ n left, s.claim c = .handover m n left →
        exec (.decline m name) s
          = .next ((raise .claim n (s.setClaim c (.held m))).answered m 0x23 [name] .ok [1, byteOf m.val, 0xFF, 0, 0]))
      ∧ (s.claim c = .held m →
        exec (.decline m name) s = .next (s.answered m 0x23 [name] .wrongState [1, byteOf m.val, 0xFF, 0, 0]))
      ∧ ((s.claim c).holder? ≠ some m →
        exec (.decline m name) s = .next (s.answered m 0x23 [name] .notHolder (s.claim c).bytes)))
  ∧ (∀ (c : ClaimId) (m n : Master) (s : State), s.claim c = .handover m n 0 →
      exec (.handoverExpiry c) s = .next (raise .claim n (raise .claim m (s.setClaim c (.held n)))))
  ∧ (∀ (c : ClaimId) (s : State), (∀ m n, s.claim c ≠ .handover m n 0) → exec (.handoverExpiry c) s = .next s)

/-! ### Permit (chapter 8) -/

/-- INTLK_ASSERTED in BLOCKED starts qualification with the whole of QUAL_TIME; QUALIFICATION_TIMER_EXPIRY,
once the time is out (log 4), gives LINE_OK and, with the hold set empty, the permit, with PERMIT raised on all masters (R140, R143, R145). HOLD and UNHOLD
while the permit is NOT_PERMITTED: the set gains or loses the sender, the permit returns when the set empties with
LINE_OK, and the reply says what stands after the request (R142, R143, R145). INTLK_DEASSERTED while NOT_PERMITTED goes
to BLOCKED and leaves the permit (R140, R143). UNHOLD while the permit is PERMITTED, so with no master holding, is answered
OK and changes nothing (R142). -/
def Obligations.PermitFollowsTheLineAndTheHolds : Prop :=
  (∀ s : State, s.permitDecided → s.stallFollows →
      (s.permit.qualification = .blocked →
        exec .intlkAsserted s
          = .next (s.modPermit fun u =>
              { u with qualification := .qualifying, timer := .running (u.qualTime * 40000) }))
      ∧ (s.permit.qualification = .qualifying → s.permit.timer = .running 0 → s.permit.hold = 0 →
        exec .qualificationTimerExpiry s
          = .next (raiseAll .permit (s.modPermit fun u =>
              { u with qualification := .lineOk, timer := .stopped, permit := .permitted })))
      ∧ (s.permit.qualification = .qualifying → s.permit.timer = .running 0 → s.permit.hold ≠ 0 →
        exec .qualificationTimerExpiry s
          = .next (s.modPermit fun u => { u with qualification := .lineOk, timer := .stopped }))
      ∧ (s.permit.qualification ≠ .qualifying ∨ s.permit.timer ≠ .running 0 →
        exec .qualificationTimerExpiry s = .next s)
      ∧ (s.permit.qualification ≠ .blocked → s.permit.permit = .notPermitted →
        exec .intlkDeasserted s
          = .next (s.modPermit fun u => { u with qualification := .blocked, timer := .stopped })))
  ∧ (∀ (m : Master) (s : State), s.listens m → s.permit.permit = .notPermitted → s.permitDecided → s.stallFollows →
      let q := byteOf s.permit.qualification.code
      let more := s.permit.hold ||| (1#3 <<< m.val)
      let less := s.permit.hold &&& ~~~(1#3 <<< m.val)
      exec (.hold m) s
          = .next ((s.modPermit fun u => { u with hold := more }).answered m 0x48 [] .ok [q, 0, byteOf more.toNat])
      ∧ (s.permit.qualification ≠ .lineOk ∨ less ≠ 0 →
        exec (.unhold m) s
          = .next ((s.modPermit fun u => { u with hold := less }).answered m 0x49 [] .ok [q, 0, byteOf less.toNat]))
      ∧ (s.permit.qualification = .lineOk → less = 0 →
        exec (.unhold m) s
          = .next ((raiseAll .permit (s.modPermit fun u =>
              { u with hold := 0, permit := .permitted })).answered m 0x49 [] .ok [2, 1, 0])))
  ∧ ∀ (m : Master) (s : State), s.listens m → s.permit.permit = .permitted → s.permitDecided →
      exec (.unhold m) s = .next (s.answered m 0x49 [] .ok [2, 1, 0])

/-- The permit lost while PERMITTED, by INTLK_DEASSERTED or by a HOLD: the trigger lines go INACTIVE; every PLANNED and
OPEN pass fails INTERLOCK, ended with its pass-end record or draining behind its exchange in flight with that outcome
pending, and no other pass changes its state; no SHOT or SWEEP test runs on; PERMIT is set on all masters (R144, R99,
R53, R54). -/
def Obligations.PermitLossDarkensTheHeads : Prop :=
  ∀ (m : Master) (s : State), s.permit.permit = .permitted → s.permitDecided → s.passesSound →
    let dark := fun (t : State) =>
      t.permit.permit = .notPermitted ∧ (∀ p, (t.port p).trigger = false)
        ∧ (∀ x ∈ t.livePasses, x.state ≠ .planned ∧ x.state ≠ .opened)
        ∧ (∀ p x, x ∈ (s.port p).queue → x.onTable = true → s.failedWith t .interlock p x)
        ∧ (∀ p x, x ∈ (s.port p).queue → x.onTable = false →
            (t.findPass p x.tag).map (fun y => (y.state, y.pendingOutcome)) = some (x.state, x.pendingOutcome))
        ∧ (∀ p y, (t.port p).test = some y → y.mode.fires = false)
        ∧ (∀ k, (t.link k).flags.getLsbD 3 = true)
        ∧ t.claims = s.claims ∧ t.angle.lock = s.angle.lock ∧ t.angle.revolution = s.angle.revolution
    (∃ t, exec .intlkDeasserted s = .next t ∧ dark t ∧ t.permit.qualification = .blocked)
    ∧ (s.listens m → ∃ t, exec (.hold m) s = .next t ∧ dark t ∧ t.permit.hold.getLsbD m.val = true)

/-! ### The blade table and the plan (chapter 2) -/

/-- A PUT_BLADE that passes the checks of R26. An insertion puts the entry, with correction 0 and count 0, at
its place (R27). A replacement takes the fields of the image and keeps the correction and the count unless the
image resets them (R28). The reply has the entries and the position after the request. PUT_BLADE from the plan claim
holder refused by each later check of R26 in turn, with the entries and the position of the number; and DROP_BLADE,
which takes the entry from the table or is refused (R29). That a refused DROP_BLADE carries the number of entries is the
model's choice (log 18), and that an accepted one carries no table position, of which R24 speaks, is its reading of R29 and
12.3 (log 41). -/
def Obligations.BladesArePutAndDropped : Prop :=
  (∀ (m : Master) (im : BladeImage) (s : State), s.listens m → s.holdsPlan m = true → s.plan.state = .edit →
      1 ≤ im.start.toNat → im.start.toNat ≤ s.angle.cfg.cpr - 2 →
      im.start.toNat < im.close.toNat → im.close.toNat ≤ s.angle.cfg.cpr - 1 →
      (im.options.getLsbD 0 = true → im.start.toNat ≤ im.mark.toNat ∧ im.mark.toNat ≤ im.close.toNat) →
      im.tracking.toNat ≤ 1 →
        let b : Blade :=
          { number := im.number, start := im.start.toNat, close := im.close.toNat
            mark := if im.options.getLsbD 0 then some im.mark.toNat else none
            correction := 0, tracking := if im.tracking = 0 then .track else .fixed
            excluded := im.options.getLsbD 1, completed := 0 }
        let answers := fun (t : State) =>
          exec (.putBlade m im) s
            = .next (t.answered m 0x10 (bladeParams im) .ok
                [byteOf t.plan.blades.length, t.plan.position im.number])
        (im.options.getLsbD 2 = false → s.plan.find im.number = none → s.plan.blades.length < 128 →
          answers (s.modPlan fun ps => { ps with blades := insertBlade b ps.blades }))
        ∧ ∀ old, im.options.getLsbD 2 = true → s.plan.find im.number = some old →
            answers (s.modPlan fun ps =>
              { ps with
                blades := insertBlade
                  { b with
                    correction := if im.options.getLsbD 3 then 0 else old.correction
                    completed := if im.options.getLsbD 4 then 0 else old.completed }
                  (ps.blades.filter fun x => x.number != im.number) }))
  ∧ ((∀ (m : Master) (im : BladeImage) (s : State), s.listens m → s.holdsPlan m = true →
        let refused := fun (status : Status) =>
          exec (.putBlade m im) s
            = .next (s.answered m 0x10 (bladeParams im) status
                [byteOf s.plan.blades.length, s.plan.position im.number])
        (s.plan.state ≠ .edit → refused .wrongState)
        ∧ (s.plan.state = .edit →
          (im.start.toNat < 1 ∨ s.angle.cfg.cpr - 2 < im.start.toNat ∨ im.close.toNat ≤ im.start.toNat
            ∨ s.angle.cfg.cpr - 1 < im.close.toNat ∨ 1 < im.tracking.toNat
            ∨ (im.options.getLsbD 0 = true ∧ (im.mark.toNat < im.start.toNat ∨ im.close.toNat < im.mark.toNat))) →
          refused .range)
        ∧ (s.plan.state = .edit → (readBladeImage s.angle.cfg.cpr im).isSome = true →
          (im.options.getLsbD 2 = false → (s.plan.find im.number).isSome = true → refused .duplicate)
          ∧ (im.options.getLsbD 2 = true → s.plan.find im.number = none → refused .noSuchBlade)
          ∧ (im.options.getLsbD 2 = false → s.plan.find im.number = none → 128 ≤ s.plan.blades.length →
              refused .tableFull)))
    ∧ (∀ (m : Master) (b : Byte) (s : State), s.listens m → s.holdsPlan m = true →
        (s.plan.state ≠ .edit →
          exec (.dropBlade m b) s = .next (s.answered m 0x11 [b] .wrongState [byteOf s.plan.blades.length]))
        ∧ (s.plan.state = .edit → (∀ x ∈ s.plan.blades, x.number ≠ b) →
          exec (.dropBlade m b) s = .next (s.answered m 0x11 [b] .noSuchBlade [byteOf s.plan.blades.length]))
        ∧ (s.plan.state = .edit → (∃ x ∈ s.plan.blades, x.number = b) →
          let t := s.modPlan fun ps => { ps with blades := ps.blades.filter fun x => x.number != b }
          exec (.dropBlade m b) s = .next (t.answered m 0x11 [b] .ok [byteOf t.plan.blades.length]))))

/-- READ_BLADE by number and by position, from any master in either plan state (R30). -/
def Obligations.ReadBladeReturnsTheEntry : Prop :=
  ∀ (m : Master) (v : Byte) (s : State), s.listens m → (s.plan.blades.map Blade.number).Nodup →
    let entries := byteOf s.plan.blades.length
    (∀ (k : Nat) (b : Blade), s.plan.blades[k]? = some b → b.number = v →
      exec (.readBlade m 0 v) s = .next (s.answered m 0x12 [0, v] .ok (b.bytes ++ [byteOf k, entries])))
    ∧ ((∀ x ∈ s.plan.blades, x.number ≠ v) →
      exec (.readBlade m 0 v) s = .next (s.answered m 0x12 [0, v] .noSuchBlade [entries]))
    ∧ (∀ b : Blade, v.toNat ≤ 127 → s.plan.blades[v.toNat]? = some b →
      exec (.readBlade m 1 v) s = .next (s.answered m 0x12 [1, v] .ok (b.bytes ++ [v, entries])))
    ∧ (v.toNat ≤ 127 → s.plan.blades.length ≤ v.toNat →
      exec (.readBlade m 1 v) s = .next (s.answered m 0x12 [1, v] .noSuchBlade [entries]))
    ∧ (128 ≤ v.toNat → exec (.readBlade m 1 v) s = .next (s.answered m 0x12 [1, v] .range [entries]))
    ∧ ∀ sel : Byte, 2 ≤ sel.toNat →
        exec (.readBlade m sel v) s = .next (s.answered m 0x12 [sel, v] .range [entries])

/-- ACTIVATE_PLAN and OPEN_PLAN from the plan claim holder (R32, R33). SET_PERMIT_CONFIG (R141), SET_ADAPT (R39) and
RESET_CORRECTION (R38): the read forms from any master, and the plan claim holder's writes, accepted or out of range.
That the refusals of ACTIVATE_PLAN, OPEN_PLAN and RESET_CORRECTION carry M 0 is the model's choice (log 18). -/
def Obligations.PlanStateAndSettings : Prop :=
  (∀ (m : Master) (s : State), s.listens m → s.holdsPlan m = true →
      (s.plan.state = .edit → s.plan.blades ≠ [] →
        exec (.activatePlan m) s
          = .next ((s.modPlan fun ps => { ps with state := .active }).answered m 0x14 [] .ok [1]))
      ∧ (s.plan.state = .edit → s.plan.blades = [] →
        exec (.activatePlan m) s = .next (s.answered m 0x14 [] .empty []))
      ∧ (s.plan.state = .active → exec (.activatePlan m) s = .next (s.answered m 0x14 [] .ok [1]))
      ∧ (s.plan.state = .active → s.livePasses = [] →
        exec (.openPlan m) s
          = .next ((s.modPlan fun ps => { ps with state := .edit }).answered m 0x13 [] .ok [0]))
      ∧ (s.plan.state = .active → s.livePasses ≠ [] →
        exec (.openPlan m) s = .next (s.answered m 0x13 [] .busy []))
      ∧ (s.plan.state = .edit → exec (.openPlan m) s = .next (s.answered m 0x13 [] .ok [0])))
  ∧ ((∀ (m : Master) (s : State), s.listens m →
        let items := [byteOf s.permit.qualification.code, byteOf s.permit.permit.code, byteOf s.permit.hold.toNat]
        exec (.setPermitConfig m none) s
            = .next (s.answered m 0x18 [] .ok (leBytes 2 s.permit.qualTime ++ items))
        ∧ (∀ v : Half, s.holdsPlan m = true → 100 ≤ v.toNat → v.toNat ≤ 2000 → v.toNat % 10 = 0 →
          exec (.setPermitConfig m (some v)) s
            = .next ((s.modPermit fun u => { u with qualTime := v.toNat }).answered m 0x18 (leBytes 2 v.toNat) .ok
                (leBytes 2 v.toNat ++ items)))
        ∧ (∀ v : Half, s.holdsPlan m = true → (v.toNat < 100 ∨ 2000 < v.toNat ∨ v.toNat % 10 ≠ 0) →
          exec (.setPermitConfig m (some v)) s
            = .next (s.answered m 0x18 (leBytes 2 v.toNat) .range (leBytes 2 s.permit.qualTime ++ items))))
    ∧ (∀ (m : Master) (s : State), s.listens m →
        let settings := [byteOf s.plan.gain, if s.plan.frozen then 1 else 0]
        exec (.setAdapt m none) s = .next (s.answered m 0x16 [] .ok settings)
        ∧ (s.holdsPlan m = true →
          (∀ a : AdaptParams, a.gain.toNat ≤ 7 → a.freeze.toNat ≤ 1 →
            exec (.setAdapt m (some a)) s
              = .next ((s.modPlan fun ps => { ps with gain := a.gain.toNat, frozen := a.freeze == 1 }).answered m 0x16
                  [a.gain, a.freeze] .ok [a.gain, a.freeze]))
          ∧ (∀ a : AdaptParams, (7 < a.gain.toNat ∨ 1 < a.freeze.toNat) →
            exec (.setAdapt m (some a)) s = .next (s.answered m 0x16 [a.gain, a.freeze] .range settings))
          ∧ ∀ n : Byte,
            (∀ b : Blade, s.plan.find n = some b →
              exec (.resetCorrection m 0 n) s
                = .next ((s.modPlan fun ps =>
                    { ps with
                      blades := ps.blades.map fun x => if x.number = n then { x with correction := 0 } else x
                      }).answered m 0x17 [0, n] .ok (leBytesInt 2 b.correction)))
            ∧ (s.plan.find n = none →
              exec (.resetCorrection m 0 n) s = .next (s.answered m 0x17 [0, n] .noSuchBlade []))
            ∧ exec (.resetCorrection m 1 n) s
                = .next ((s.modPlan fun ps =>
                    { ps with blades := ps.blades.map fun x => { x with correction := 0 } }).answered m 0x17 [1, n] .ok
                      [0, 0])
            ∧ ∀ k : Byte, 2 ≤ k.toNat → exec (.resetCorrection m k n) s = .next (s.answered m 0x17 [k, n] .range []))))

/-! ### Angle configuration (1.9) -/

/-- SET_ANGLE_CONFIG: the read form, and the write form refused by each check after the claim check (R20). An accepted
write (R21): the eight parameters replaced and, by what differs, the index given up, the direction exchanged, or the
angle shifted and the origin armed when it then lies in the far half of the revolution (R16). -/
def Obligations.AngleConfigIsCheckedAndWritten : Prop :=
  (∀ (m : Master) (s : State), s.listens m →
      exec (.setAngleConfig m none) s = .next (s.answered m 0x15 [] .ok s.angle.cfg.bytes)
      ∧ ∀ a : AngleParams, s.holdsPlan m = true →
        let refused := fun (status : Status) =>
          exec (.setAngleConfig m (some a)) s
            = .next (s.answered m 0x15 (angleParams (some a)) status s.angle.cfg.bytes)
        (s.plan.state ≠ .edit → refused .wrongState)
        ∧ (s.plan.state = .edit →
          (a.cpr.toNat < 4096 ∨ 16777216 < a.cpr.toNat ∨ a.cpr.toNat ≤ a.zeroOffset.toNat ∨ 63 < a.idxTol.toNat
            ∨ a.lockRevs.toNat < 2 ∨ 8 < a.lockRevs.toNat ∨ a.slipLimit.toNat < 1 ∨ 8 < a.slipLimit.toNat
            ∨ a.revHyst.toNat < 1 ∨ a.stallTime.toNat < 10 ∨ 2550 < a.stallTime.toNat
            ∨ a.stallTime.toNat % 10 ≠ 0 ∨ 1 < a.sense.toNat) → refused .range)
        ∧ (s.plan.state = .edit → (readAngleParams a).isSome = true → a.cpr.toNat ≠ s.angle.cfg.cpr →
          s.plan.blades ≠ [] → refused .busy))
  ∧ (∀ (m : Master) (a : AngleParams) (new : AngleConfig) (s : State), s.listens m → s.holdsPlan m = true →
      s.plan.state = .edit → s.livePasses = [] → s.stallFollows → readAngleParams a = some new →
      (new.cpr = s.angle.cfg.cpr ∨ s.plan.blades = []) →
        let old := s.angle.cfg
        ((new.cpr = old.cpr ∧ new.sense = old.sense ∧ new.zeroOffset = old.zeroOffset) →
          exec (.setAngleConfig m (some a)) s
            = .next ((s.modAngle fun u => { u with cfg := new }).answered m 0x15 (angleParams (some a)) .ok new.bytes))
        ∧ ((new.cpr = old.cpr ∧ new.sense = old.sense ∧ new.zeroOffset ≠ old.zeroOffset) →
          ∃ t, exec (.setAngleConfig m (some a)) s = .next t
            ∧ (let a := ({ s.angle with cfg := new } : AngleUnit).value
               t.angle = { s.angle with
                 cfg := new
                 originArmed := s.angle.originArmed
                   || decide (s.angle.lock ≠ .noIndex ∧ new.cpr / 4 ≤ a ∧ a ≤ 3 * new.cpr / 4) })
            ∧ (∀ k, (t.link k).flags = (s.link k).flags)
            ∧ ∀ p, (∀ y, (s.port p).test = some y → y.mode.isSweep = false) → t.port p = s.port p)
        ∧ ((new.cpr ≠ old.cpr ∨ new.sense ≠ old.sense) →
          ∃ t, exec (.setAngleConfig m (some a)) s = .next t
            ∧ t.angle = { s.angle with
                cfg := new, lock := .noIndex, goodCount := 0, slipWindow := [], suspect := false, originArmed := false
                direction := if new.sense = old.sense then s.angle.direction
                  else match s.angle.direction with | .forward => .reverse | .reverse => .forward
                reverseRun := if new.sense = old.sense then s.angle.reverseRun else 0 }
            ∧ (s.angle.lock = .noIndex → ∀ k, (t.link k).flags = (s.link k).flags)
            ∧ (s.angle.lock ≠ .noIndex → ∀ k, (t.link k).flags.getLsbD 2 = true)
            ∧ (s.angle.lock = .locked → ∀ p y, (t.port p).test = some y → y.mode.isSweep = false)))

/-! ### Counts of the encoder (chapter 1) -/

/-- Every decoded count moves the position and the decoder by one place in its count direction, and follows the
direction by the reverse run (R2, R6); the angle is the position less the reference and ZERO_OFFSET, modulo CPR, and 0
in NO_INDEX (R5). The revolution number rises by 1, wrapping, exactly at a count in the recognised direction that
crosses the origin while LOCKED and armed, by the lock state before any index of the count (R17). After the count the
origin is armed exactly when the angle lies in floor(CPR/4)..floor(3·CPR/4), or LOCKED was entered, or it was armed and
no origin event cleared it (R16, R17). -/
def Obligations.CountMovesAndCrossesTheOrigin : Prop :=
  (∀ (mv : Move) (z : Bool) (s : State),
      let d : Direction := match s.angle.cfg.sense, mv with
        | .normal, .ahead | .inverted, .back => .forward
        | .normal, .back | .inverted, .ahead => .reverse
      ∃ t, exec (.decodedCount mv z) s = .next t
        ∧ t.angle.position = s.angle.position + (match d with | .forward => 1 | .reverse => -1)
        ∧ t.angle.decoder = (match mv, s.angle.decoder with
            | .ahead, .ll => .hl | .ahead, .hl => .hh | .ahead, .hh => .lh | .ahead, .lh => .ll
            | .back, .ll => .lh | .back, .lh => .hh | .back, .hh => .hl | .back, .hl => .ll)
        ∧ (d = s.angle.direction → t.angle.direction = d ∧ t.angle.reverseRun = 0)
        ∧ (d ≠ s.angle.direction → s.angle.cfg.revHyst ≤ s.angle.reverseRun + 1 →
            t.angle.direction = d ∧ t.angle.reverseRun = 0)
        ∧ (d ≠ s.angle.direction → s.angle.reverseRun + 1 < s.angle.cfg.revHyst →
            t.angle.direction = s.angle.direction ∧ t.angle.reverseRun = s.angle.reverseRun + 1)
        ∧ (t.angle.lock = .noIndex → t.angle.value = 0)
        ∧ (t.angle.lock ≠ .noIndex → 0 < s.angle.cfg.cpr →
            (t.angle.value : Int) = (t.angle.position - t.angle.reference - s.angle.cfg.zeroOffset) % s.angle.cfg.cpr)
        ∧ t.angle.cfg = s.angle.cfg ∧ t.permit = s.permit ∧ t.claims = s.claims ∧ t.plan.state = s.plan.state)
  ∧ (∀ (mv : Move) (z : Bool) (s : State),
      let d := countDirection s.angle.cfg.sense mv
      let counted := (s.angle.count mv).track d
      let crossing : Prop :=
        s.angle.lock = .locked ∧ s.angle.originArmed = true ∧ d = counted.direction
          ∧ (match d with
              | .forward => s.angle.value = s.angle.cfg.cpr - 1 ∧ counted.value = 0
              | .reverse => s.angle.value = 0 ∧ counted.value = s.angle.cfg.cpr - 1)
      ∃ t, exec (.decodedCount mv z) s = .next t
        ∧ (crossing → t.angle.revolution = s.angle.revolution + 1)
        ∧ (¬ crossing → t.angle.revolution = s.angle.revolution)
        ∧ (t.angle.originArmed = true ↔
            (t.angle.lock ≠ .noIndex ∧ s.angle.cfg.cpr / 4 ≤ t.angle.value ∧ t.angle.value ≤ 3 * s.angle.cfg.cpr / 4)
              ∨ (s.angle.lock = .seeking ∧ t.angle.lock = .locked)
              ∨ (s.angle.originArmed = true ∧ ¬ crossing)))

/-- How a decoded count reaches the ports, in the steps of R4 and R85: a direction change, then an origin event, then the
count itself, each taken whole by all four ports, one port after another, in an order that is a free value (log 7); at
each port the Trigger Unit or planner before the SWEEP test, of which one has nothing to do (R102). A count without an
index event or a missed index does nothing more at a port or a link. -/
def Obligations.DecodedCountReachesThePorts : Prop :=
  ∀ (mv : Move) (z : Bool) (s : State),
    let d := countDirection s.angle.cfg.sense mv
    let moved := s.modAngle fun a => (a.count mv).track d
    let after := moved.angle.value
    let crossing : Prop :=
      s.angle.lock = .locked ∧ s.angle.originArmed = true ∧ d = moved.angle.direction
        ∧ (match d with
            | .forward => s.angle.value = s.angle.cfg.cpr - 1 ∧ after = 0
            | .reverse => s.angle.value = 0 ∧ after = s.angle.cfg.cpr - 1)
    ∃ s1 s2 s3 t, exec (.decodedCount mv z) s = .next t
      ∧ (d ≠ s.angle.direction → s.angle.cfg.revHyst ≤ s.angle.reverseRun + 1 →
          moved.takenByPorts (fun p u => reverseAtSweep p (reverseAtTrigger p u)) s1)
      ∧ (d = s.angle.direction ∨ s.angle.reverseRun + 1 < s.angle.cfg.revHyst → s1 = moved)
      ∧ (crossing → (s1.modAngle fun a =>
            { a with revolution := a.revolution + 1, originArmed := false }).takenByPorts
          (fun p u => originAtSweep d p (originAtPlanner d p u)) s2)
      ∧ (¬ crossing → s2 = s1)
      ∧ s2.takenByPorts (fun p u => countAtSweep d p (countAtTrigger d p u)) s3
      ∧ ((z = false ∨ s.angle.decoder.move mv ≠ .ll) →
        (s.angle.lock = .noIndex ∨ moved.angle.travel.natAbs ≤ s.angle.cfg.cpr + s.angle.cfg.idxTol) →
          t.ports = s3.ports ∧ t.links = s3.links ∧ t.plan = s3.plan ∧ t.permit = s.permit ∧ t.claims = s.claims)

/-- An index event in NO_INDEX and in SEEKING (R9, R10): what becomes of the reference, the good count, SUSPECT
and the lock, with LOCK raised on all masters at each change of lock. -/
def Obligations.IndexWhileNotLocked : Prop :=
  ∀ (mv : Move) (s : State), s.angle.decoder.move mv = .ll →
    let counted := s.angle.count mv
    let tol := s.angle.cfg.idxTol
    let near0 : Prop := counted.travel.natAbs ≤ tol
    let nearCpr : Prop := (counted.travel.natAbs - (s.angle.cfg.cpr : Int)).natAbs ≤ tol
    ∃ t, exec (.decodedCount mv true) s = .next t
      ∧ (s.angle.lock = .noIndex →
          t.angle.lock = .seeking ∧ t.angle.reference = counted.position ∧ t.angle.goodCount = 0
            ∧ t.angle.suspect = false ∧ ∀ k, (t.link k).flags.getLsbD 2 = true)
      ∧ (s.angle.lock = .seeking → near0 →
          t.angle.lock = .seeking ∧ t.angle.reference = s.angle.reference
            ∧ t.angle.goodCount = s.angle.goodCount ∧ t.angle.suspect = s.angle.suspect)
      ∧ (s.angle.lock = .seeking → ¬ near0 → nearCpr →
          t.angle.goodCount = s.angle.goodCount + 1 ∧ t.angle.suspect = false
            ∧ t.angle.reference = (if counted.travel < 0 then s.angle.reference - s.angle.cfg.cpr
                else s.angle.reference + s.angle.cfg.cpr)
            ∧ (s.angle.cfg.lockRevs ≤ s.angle.goodCount + 1 →
                t.angle.lock = .locked ∧ t.angle.slipWindow = [] ∧ t.angle.originArmed = true
                  ∧ ∀ k, (t.link k).flags.getLsbD 2 = true)
            ∧ (s.angle.goodCount + 1 < s.angle.cfg.lockRevs → t.angle.lock = .seeking))
      ∧ (s.angle.lock = .seeking → ¬ near0 → ¬ nearCpr →
          t.angle.lock = .seeking ∧ t.angle.goodCount = 0 ∧ t.angle.suspect = false
            ∧ t.angle.reference = counted.position)

/-- An index event in LOCKED (R11, R12, R15): its outcome joins the window, a bad one re-takes the reference, and
SLIP_LIMIT slips end the lock with LOCK on all masters and no SWEEP test left. Then every pass that stands PLANNED or OPEN
when the four Trigger Units have taken the slip fails ANGLE_LOST: ended with its pass-end record, or draining with that
outcome pending (R15, R53, R54). -/
def Obligations.IndexWhileLocked : Prop :=
  ∀ (mv : Move) (s : State), s.angle.decoder.move mv = .ll → s.angle.lock = .locked →
    let counted := s.angle.count mv
    let tol := s.angle.cfg.idxTol
    let near0 : Prop := counted.travel.natAbs ≤ tol
    let nearCpr : Prop := (counted.travel.natAbs - (s.angle.cfg.cpr : Int)).natAbs ≤ tol
    let window := fun (o : IndexOutcome) =>
      (if 16 ≤ s.angle.slipWindow.length then s.angle.slipWindow.tail else s.angle.slipWindow) ++ [o]
    let d := countDirection s.angle.cfg.sense mv
    let reached := atPorts (countAt d) (originTest d s.angle.value (trackDirection d (s.modAngle (·.count mv))))
    let retaken := reached.modAngle fun a =>
      { a with reference := a.position, slipWindow := window .slip, suspect := false }
    let slipped := atPorts (slipAt (retaken.angle.value != reached.angle.value)) retaken
    ∃ t, exec (.decodedCount mv true) s = .next t
      ∧ (near0 → t.angle.lock = .locked ∧ t.angle.reference = s.angle.reference
          ∧ t.angle.slipWindow = s.angle.slipWindow ∧ t.angle.suspect = s.angle.suspect)
      ∧ (¬ near0 → nearCpr → t.angle.lock = .locked ∧ t.angle.slipWindow = window .good
          ∧ t.angle.suspect = false
          ∧ t.angle.reference = (if counted.travel < 0 then s.angle.reference - s.angle.cfg.cpr
              else s.angle.reference + s.angle.cfg.cpr))
      ∧ (¬ near0 → ¬ nearCpr → t.angle.slipWindow = window .slip ∧ t.angle.suspect = false
          ∧ t.angle.reference = counted.position
          ∧ (s.angle.cfg.slipLimit ≤ (window .slip).count .slip →
              t.angle.lock = .seeking ∧ t.angle.goodCount = 0
                ∧ (∀ k, (t.link k).flags.getLsbD 2 = true)
                ∧ (∀ p y, (t.port p).test = some y → y.mode.isSweep = false)
                ∧ (s.passesSound → (∀ x ∈ t.livePasses, x.onTable = false)
                    ∧ ∀ p x, x ∈ (slipped.port p).queue → x.onTable = true → slipped.failedWith t .angleLost p x))
          ∧ ((window .slip).count .slip < s.angle.cfg.slipLimit →
              t.angle.lock = .locked ∧ t.ports = slipped.ports ∧ t.links = slipped.links))

/-- A missed index (R8, R10, R11): the reference advances by CPR in the direction of the index travel; the good
count goes to 0 in SEEKING, and SLIP is appended in LOCKED, where SLIP_LIMIT slips end the lock with LOCK on all masters,
no SWEEP test left and every pass that stands PLANNED or OPEN after the slip failed ANGLE_LOST (R12, R15). -/
def Obligations.MissedIndexAdvancesTheReference : Prop :=
  ∀ (mv : Move) (s : State), s.angle.lock ≠ .noIndex →
    let counted := s.angle.count mv
    s.angle.cfg.cpr + s.angle.cfg.idxTol < counted.travel.natAbs →
    let window :=
      (if 16 ≤ s.angle.slipWindow.length then s.angle.slipWindow.tail else s.angle.slipWindow) ++ [IndexOutcome.slip]
    let d := countDirection s.angle.cfg.sense mv
    let reached := atPorts (countAt d) (originTest d s.angle.value (trackDirection d (s.modAngle (·.count mv))))
    let slipped := atPorts (slipAt false) (reached.modAngle fun a =>
      { a with
        slipWindow := window
        reference := if counted.travel < 0 then a.reference - a.cfg.cpr else a.reference + a.cfg.cpr })
    ∃ t, exec (.decodedCount mv false) s = .next t
      ∧ t.angle.reference = (if counted.travel < 0 then s.angle.reference - s.angle.cfg.cpr
          else s.angle.reference + s.angle.cfg.cpr)
      ∧ (s.angle.lock = .seeking → t.angle.lock = .seeking ∧ t.angle.goodCount = 0)
      ∧ (s.angle.lock = .locked → t.angle.slipWindow = window
          ∧ (s.angle.cfg.slipLimit ≤ window.count .slip →
              t.angle.lock = .seeking ∧ t.angle.goodCount = 0 ∧ (∀ k, (t.link k).flags.getLsbD 2 = true)
                ∧ (∀ p y, (t.port p).test = some y → y.mode.isSweep = false)
                ∧ (s.passesSound → (∀ x ∈ t.livePasses, x.onTable = false)
                    ∧ ∀ p x, x ∈ (slipped.port p).queue → x.onTable = true → slipped.failedWith t .angleLost p x))
          ∧ (window.count .slip < s.angle.cfg.slipLimit →
              t.angle.lock = .locked ∧ t.ports = slipped.ports ∧ t.links = slipped.links))

/-- A quadrature error (R3): the decoder moves two places and the position, the reverse run and the direction
stand; in SEEKING the good count is 0, in LOCKED SLIP is appended, SUSPECT set and the limit judged (R12). Every pass of
a revolution plan takes the SLIPPED mark, an OPEN one the flag too, and below the limit nothing else of a port changes
(R91, R93); at the limit LOCK is raised on all masters, every PLANNED and OPEN pass fails ANGLE_LOST and no SWEEP test is
left (R15). -/
def Obligations.QuadratureErrorIsNoCount : Prop :=
  ∀ s : State,
    let window :=
      (if 16 ≤ s.angle.slipWindow.length then s.angle.slipWindow.tail else s.angle.slipWindow) ++ [IndexOutcome.slip]
    let marked := fun (q : Port) (x : Pass) =>
      if q.plan.any (·.tag == x.tag) then
        { x with
          marks := { x.marks with slipped := true }
          flags := { x.flags with slipped := x.flags.slipped || x.state == .opened } }
      else x
    ∃ t, exec .quadratureError s = .next t
      ∧ t.angle.decoder = (match s.angle.decoder with | .ll => .hh | .hl => .lh | .hh => .ll | .lh => .hl)
      ∧ t.angle.position = s.angle.position ∧ t.angle.reverseRun = s.angle.reverseRun
      ∧ t.angle.direction = s.angle.direction ∧ t.angle.reference = s.angle.reference
      ∧ t.angle.revolution = s.angle.revolution
      ∧ (s.angle.lock = .noIndex → t = s.modAngle fun a => { a with decoder := a.decoder.next.next })
      ∧ (s.angle.lock = .seeking →
          t = s.modAngle fun a => { a with decoder := a.decoder.next.next, goodCount := 0 })
      ∧ (s.angle.lock = .locked → t.angle.suspect = true ∧ t.angle.slipWindow = window
          ∧ (s.angle.cfg.slipLimit ≤ window.count .slip →
              t.angle.lock = .seeking ∧ t.angle.goodCount = 0 ∧ (∀ k, (t.link k).flags.getLsbD 2 = true)
                ∧ (∀ p y, (t.port p).test = some y → y.mode.isSweep = false)
                ∧ (s.passesSound → (∀ x ∈ t.livePasses, x.onTable = false)
                    ∧ ∀ p x, x ∈ (s.port p).queue → x.onTable = true →
                        s.failedWith t .angleLost p (marked (s.port p) x)))
          ∧ (window.count .slip < s.angle.cfg.slipLimit → t.angle.lock = .locked ∧ t.links = s.links
              ∧ ∀ p, t.port p = { s.port p with queue := (s.port p).queue.map (marked (s.port p)) }))

/-- STALL_TIMER_EXPIRY of a timer that has run out: every PLANNED and OPEN pass fails TABLE_STALL, ended with its pass-end record
or draining behind its exchange in flight with that outcome pending, and no other pass changes; LOCK is set on all
masters, the timer stops, and the rest of the Angle Unit stands (R19, R53, R54, R56). A decoded count taken first restarts
the timer, and the expiry does not happen (R18, R19); nor does it of a timer that is stopped or has time left (log 4). -/
def Obligations.StallFailsThePassesOnTheTable : Prop :=
  (∀ s : State, s.angle.stall ≠ .running 0 → exec .stallTimerExpiry s = .next s)
  ∧ (∀ (move : Move) (encZ : Bool) (s : State), s.angleConfigInRange →
      ∃ t, exec (.decodedCount move encZ) s = .next t ∧ exec .stallTimerExpiry t = .next t)
  ∧ ∀ s : State, s.angle.stall = .running 0 → s.passesSound →
    ∃ t, exec .stallTimerExpiry s = .next t
      ∧ (∀ x ∈ t.livePasses, x.state ≠ .planned ∧ x.state ≠ .opened)
      ∧ (∀ p x, x ∈ (s.port p).queue → x.onTable = true → s.failedWith t .tableStall p x)
      ∧ (∀ p x, x ∈ (s.port p).queue → x.onTable = false → t.findPass p x.tag = some x)
      ∧ (∀ k, (t.link k).flags.getLsbD 2 = true)
      ∧ t.angle = { s.angle with stall := .stopped }
      ∧ t.permit = s.permit ∧ t.claims = s.claims ∧ t.plan = s.plan

/-! ### Passes, planning, firing and edge tracking (chapters 3, 4, 5 and 7) -/

/-- REPEAT sets the prefix or clears it (R47). SUBMIT_PASS by the checks of R45 in order; one that passes them all takes
the lowest free tag and joins the tail of its port queue, QUEUED, with one entry reserved (R46). That a refusal for a
port number above 3 carries FF, 00, 00 like every other is the model's choice (log 39), and so is RANGE before the plan
state, which R31 seems to put first (log 44). -/
def Obligations.SubmissionIsCheckedThenAdmitted : Prop :=
  ∀ (m : Master) (r : SubmitParams) (s : State), s.listens m →
    (∀ v : Byte, 1 ≤ v.toNat → v.toNat ≤ 16 →
      exec (.repeatNext m v) s
        = .next ((s.answered m 0x40 [v] .ok []).modLink m fun l => { l with repeats := some v.toNat }))
    ∧ (∀ v : Byte, (v.toNat < 1 ∨ 16 < v.toNat) →
      exec (.repeatNext m v) s = .next (s.answered m 0x40 [v] .range []))
    ∧
    let answers := fun (t : State) (status : Status) (data : List Byte) =>
      exec (.submitPass m r) s = .next (t.answered m 0x41 (submitParams r) status data)
    let refused := fun (status : Status) => answers s status [0xFF, 0, 0]
    let len := r.len.toNat
    let inRange : Prop := r.port.toNat ≤ 3 ∧ r.direction.toNat ≤ 1 ∧ 1 ≤ r.step.toNat ∧ r.limit.toNat ≤ 120
      ∧ (len = 2 ∨ len = 4 ∨ len = 6 ∨ len = 8)
    (¬ inRange → refused .range)
    ∧ ∀ p : PortId, r.port = byteOf p.val → inRange →
      (s.plan.state ≠ .active ∨ (s.port p).state ≠ .ready → refused .wrongState)
      ∧ (s.plan.state = .active → (s.port p).state = .ready →
        (s.plan.find r.blade = none → refused .noSuchBlade)
        ∧ ∀ b : Blade, s.plan.find r.blade = some b →
          let fit := (b.close - b.start) / r.step.toNat + 1
          let n := if r.limit = 0 then fit else min r.limit.toNat fit
          let edge := r.options.getLsbD 1
          let unfit : Prop := edge = true ∧ (len < 6 ∨ b.mark = none)
          (b.excluded = true → refused .excluded)
          ∧ (b.excluded = false →
            (unfit → refused .range)
            ∧ (¬ unfit → 120 < n → refused .tooManyShots)
            ∧ (¬ unfit → n ≤ 120 → 16 ≤ (s.port p).queue.length → refused .queueFull)
            ∧ (¬ unfit → n ≤ 120 → (s.port p).queue.length < 16 →
                128 ≤ (s.link m).records.length + (s.link m).reserved → refused .resultFull)
            ∧ (¬ unfit → n ≤ 120 → (s.port p).queue.length < 16 →
                (s.link m).records.length + (s.link m).reserved < 128 →
              ∀ tag : Tag, (∀ x ∈ s.livePasses, x.tag ≠ tag) →
                (∀ u : Tag, u < tag → ∃ x ∈ s.livePasses, x.tag = u) →
                let repeats := (s.link m).repeats.getD 1
                let x : Pass :=
                  { tag := tag, owner := m, blade := r.blade
                    dir := if r.direction = 0 then .forward else .reverse
                    step := r.step.toNat, n := n, len := len, seeded := r.options.getLsbD 0, edge := edge
                    follow := r.options.getLsbD 2, repeats := repeats, revsDone := 0, fired := 0, clean := 0
                    flagged := 0, marks := ⟨false, false, false⟩, flags := ⟨false, false, false, false, false⟩
                    lastEdge := none, state := .queued, pendingOutcome := none
                    observation := if edge then .empty else .absent }
                answers ((s.modLink m fun l => { l with reserved := l.reserved + 1 }).modPort p fun q =>
                    { q with queue := q.queue ++ [x] }) .ok [byteOf tag.val, byteOf n, byteOf repeats])))

/-- ABORT_PASS: no such pass, another owner's, and one whose outcome is already pending, which changes nothing (R55,
R58). Otherwise the pass leaves the revolution plan and the entries of its unfired shots are released, all n of a PLANNED
pass; its pending shot is dropped with an ABORTED record; then an OPEN or DRAINING pass with an exchange in flight drains
with ABORTED pending, and any other ends at once: its pass-end record is written behind the dropped shot's, and it leaves
its queue (R54, R56). The reply carries the state in which the abort was taken, and whether the pass has ended (R58). -/
def Obligations.AbortByPassState : Prop :=
  ∀ (m : Master) (tag : Tag) (s : State), s.listens m →
    let name : Byte := byteOf tag.val
    ((∀ x ∈ s.livePasses, x.tag ≠ tag) →
      exec (.abortPass m name) s = .next (s.answered m 0x42 [name] .noSuchPass []))
    ∧ ∀ (p : PortId) (x : Pass), s.findPass p tag = some x → (∀ r, r ≠ p → s.findPass r tag = none) →
      (x.owner ≠ m → exec (.abortPass m name) s = .next (s.answered m 0x42 [name] .notHolder []))
      ∧ (x.owner = m → x.pendingOutcome = none → s.passesSound → (s.port p).workFollows → (s.port p).planFollows →
        let drains := (x.state = .opened ∨ x.state = .draining) ∧ (s.port p).inFlight tag = true
        let passEnd : Record := .passEnd
          { tag := tag, port := p, blade := x.blade, outcome := .aborted, revsDone := x.revsDone
            fired := x.fired, clean := x.clean, flags := x.flags, lastEdge := x.lastEdge }
        ∃ (t : State) (dropped : List Record) (unfired : Nat), exec (.abortPass m name) s = .next t
          ∧ (∀ e, (s.port p).findEntry tag = some e →
              unfired = e.n - e.fired ∧ (x.state = .planned → unfired = e.n))
          ∧ ((s.port p).findEntry tag = none → unfired = 0)
          ∧ (x.state = .planned ∨ x.state = .opened → ∃ e, (s.port p).findEntry tag = some e)
          ∧ (t.port p).plan = (s.port p).plan.filter (fun e => e.tag != tag)
          ∧ (∀ sh, (s.port p).slot = some sh → sh.isOf tag = true →
              (t.port p).slot = none ∧ dropped = [.shot (shotRecord p sh .aborted [])])
          ∧ ((s.port p).isPending tag = false → (t.port p).slot = (s.port p).slot ∧ dropped = [])
          ∧ (drains →
              (t.link m).records = (s.link m).records ++ dropped
              ∧ (t.link m).reserved = (s.link m).reserved - unfired - dropped.length
              ∧ (t.link m).reply = replyFrame .ok [byteOf x.state.code, 0]
              ∧ ∃ y, t.findPass p tag = some y ∧ y.state = .draining ∧ y.pendingOutcome = some .aborted)
          ∧ (¬ drains →
              (t.link m).records = (s.link m).records ++ dropped ++ [passEnd]
              ∧ (t.link m).reserved = (s.link m).reserved - unfired - dropped.length - 1
              ∧ (t.link m).flags.getLsbD 0 = true ∧ (t.link m).flags.getLsbD 1 = true
              ∧ (t.link m).reply = replyFrame .ok [byteOf x.state.code, 1]
              ∧ (t.port p).queue = (s.port p).queue.filter fun y => y.tag != tag))
      ∧ (x.owner = m → x.pendingOutcome ≠ none → (s.port p).isPending tag = false → s.stallFollows →
        exec (.abortPass m name) s = .next (s.answered m 0x42 [name] .ok [byteOf x.state.code, 0]))

/-- An origin event at a planner (R66 to R74, R129). The unopened passes return: each leaves the plan, is QUEUED with its
marks cleared and its observation EMPTY, and its unfired entries are released. With a closed gate nothing is planned.
With an open one the walk considers the passes of the queue from the oldest to the youngest. One that is not QUEUED, or
not in the direction of the event, is left as it is; one whose corrected window leaves 1..CPR−1 ends FAILED WINDOW_RANGE;
one that finds 8 passes in the plan, an extent it shares a count with, or no room for n records with its owner stays as
it is; any other is chosen: n entries reserved, PLANNED, its marks cleared, its observation EMPTY, and its entry in the
plan with the extent of R71. That an OPEN pass met at the event keeps its entry in the plan is the model's choice
(log 35). -/
def Obligations.PlannerReturnsChecksAndChooses : Prop :=
  ∀ (d : Direction) (p : PortId) (s : State),
    let opened : Prop := (s.port p).state = .ready ∧ s.permit.permit = .permitted ∧ s.plan.state = .active
    let returned := ((s.port p).plan.map PlanEntry.tag).foldl (fun u tag => returnPass p tag u) s
    (¬ opened → originAtPlanner d p s = returned)
    ∧ (opened → originAtPlanner d p s
        = ((returned.port p).queue.map Pass.tag).foldl (fun u tag => considerPass d p tag u) returned)
    ∧ ((∀ x ∈ (s.port p).queue, x.state = .planned → ∃ e ∈ (s.port p).plan, e.tag = x.tag) →
      (∀ e ∈ (s.port p).plan, ∃ x ∈ (s.port p).queue, x.tag = e.tag ∧ x.state = .planned) →
      ((s.port p).queue.map Pass.tag).Nodup → ¬ opened →
        ((originAtPlanner d p s).port p).plan = []
          ∧ ∀ x ∈ ((originAtPlanner d p s).port p).queue, x.state ≠ .planned)
    ∧ ∀ x : Pass, s.findPass p x.tag = some x →
      let emptied : Observation → Observation := fun o => match o with | .absent => .absent | .empty | .held .. => .empty
      let put := fun (q : Port) (st : PassState) => q.queue.map fun y =>
        if y.tag = x.tag then
          { y with state := st, marks := ⟨false, false, false⟩, observation := emptied y.observation }
        else y
      (x.state ≠ .planned → returnPass p x.tag s = s)
      ∧ (∀ e, x.state = .planned → (s.port p).findEntry x.tag = some e →
        returnPass p x.tag s
          = (s.modLink x.owner fun l => { l with reserved := l.reserved - (e.n - e.fired) }).modPort p fun q =>
              { q with queue := put q .queued, plan := q.plan.filter fun f => f.tag != x.tag })
      ∧ (x.state ≠ .queued ∨ x.dir ≠ d → considerPass d p x.tag s = s)
      ∧ ∀ b : Blade, x.state = .queued → x.dir = d → x.pendingOutcome = none → s.plan.find x.blade = some b →
        let c : Int := if x.follow then b.correction else 0
        let e : PlanEntry :=
          { tag := x.tag, first := (b.start + c).toNat, last := (b.start + c).toNat + (x.n - 1) * x.step
            dir := x.dir, n := x.n, step := x.step, next := 0, fired := 0 }
        let inRange : Prop := 1 ≤ b.start + c ∧ b.close + c ≤ (s.angle.cfg.cpr : Int) - 1
        let fits : Prop := (s.port p).plan.length < 8
          ∧ (∀ f ∈ (s.port p).plan, e.last < f.first ∨ f.last < e.first)
          ∧ (s.link x.owner).records.length + (s.link x.owner).reserved + x.n ≤ 128
        (¬ inRange → considerPass d p x.tag s
          = (s.modLink x.owner (·.written (.passEnd (passEndRecord p x (.failed .windowRange))) 3)).modPort p fun q =>
              { q with queue := q.queue.filter fun y => y.tag != x.tag })
        ∧ (inRange → ¬ fits → considerPass d p x.tag s = s)
        ∧ (inRange → fits → considerPass d p x.tag s
          = ((s.modLink x.owner fun l => { l with reserved := l.reserved + x.n }).modPort p fun q =>
              { q with queue := put q .planned, plan := insertEntry e q.plan }))

/-- A decoded count at a Trigger Unit, under the permit, in the pass direction and the recognised direction, onto the
position of the next shot of the OPEN pass, or onto that of shot 0 of a PLANNED pass with none OPEN, which then opens
(R86, R88). The line is driven, the shot stamped and counted, with SLIP by R90; it starts an exchange, becomes the pending
shot, or gets an OVERRUN record (R98, R100, R113, R119). After the last shot the entry leaves the plan, the entries of
the shots not fired are released, and the pass drains, or goes to revolution-end processing with no exchange outstanding
(R95, R49). At any other count the Trigger Unit does nothing; that it also tests the permit itself is the model's choice
(log 21). -/
def Obligations.PassOpensFiresAndCloses : Prop :=
  ∀ (d : Direction) (p : PortId) (s : State),
    let position := fun (e : PlanEntry) (k : Nat) =>
      match e.dir with | .forward => e.first + k * e.step | .reverse => e.last - k * e.step
    (s.permit.permit = .notPermitted ∨ s.angle.direction ≠ d → countAtTrigger d p s = s)
    ∧ (∀ e, (s.port p).openEntry = some e → (e.dir ≠ d ∨ s.angle.value ≠ position e e.next) →
        countAtTrigger d p s = s)
    ∧ ((s.port p).openEntry = none →
      (∀ e ∈ (s.port p).plan, (s.port p).entryIn .planned e = true → e.dir = d → s.angle.value ≠ position e 0) →
        countAtTrigger d p s = s)
    ∧ ∀ (x : Pass) (e : PlanEntry), s.permit.permit = .permitted → s.angle.direction = d → e.dir = d →
      ((s.port p).queue.map Pass.tag).Nodup → s.findPass p e.tag = some x → (s.port p).findEntry e.tag = some e →
      x.pendingOutcome = none → e.next < e.n → s.angle.value = position e e.next →
      ((s.port p).openEntry = some e
        ∨ ((s.port p).openEntry = none ∧ x.state = .planned ∧ e.next = 0
            ∧ ∀ f ∈ (s.port p).plan, f.dir = d → s.angle.value = position f 0 → f = e)) →
      let slip := s.angle.suspect || x.marks.slipped
      let sh : Shot :=
        { kind := .pass, tag := x.tag, owner := x.owner, blade := x.blade, index := byteOf e.next
          angle := s.angle.value, revolution := s.angle.revolution, slip := slip, len := x.len
          seeded := x.seeded, orphan := false }
      let driven := s.modPort p fun q =>
        { q with
          trigger := true, pulse := .running (q.cfg.trigWidth * 40)
          queue := q.queue.map fun y =>
            if y.tag = e.tag then
              { y with
                state := .opened, fired := y.fired + 1
                marks := { y.marks with slipped := y.marks.slipped || slip }
                flags := { y.flags with slipped := y.flags.slipped || slip } }
            else y
          plan := q.plan.map fun f =>
            if f.tag = e.tag then { f with next := f.next + 1, fired := f.fired + 1 } else f }
      let handed := match (s.port p).exchange, (s.port p).slot with
        | none, _ => driven.modPort p fun q =>
            { q with
              exchange := some
                { shot := sh, frame := sh.frame, sendTimer := q.sendTime 4, phase := .sending, received := []
                  timer := .stopped, bitTime := q.cfg.bitTime, stopBits := q.cfg.stopBits, rto := q.cfg.rto } }
        | some _, none => driven.modPort p fun q => { q with slot := some sh }
        | some _, some _ =>
            (driven.modLink x.owner (·.written (.shot (shotRecord p sh .overrun [])) 1)).modPort p fun q =>
              { q with queue := q.queue.map fun y =>
                  if y.tag = e.tag then { y with flagged := y.flagged + 1 } else y }
      let closed := (handed.modLink x.owner fun l =>
          { l with reserved := l.reserved - (e.n - (e.fired + 1)) }).modPort p fun q =>
        { q with
          plan := q.plan.filter fun f => f.tag != e.tag
          queue := q.queue.map fun y => if y.tag = e.tag then { y with state := .draining } else y }
      (e.next + 1 < e.n → countAtTrigger d p s = handed)
      ∧ (e.next + 1 = e.n → (closed.port p).outstanding e.tag = true → countAtTrigger d p s = closed)
      ∧ (e.next + 1 = e.n → (closed.port p).outstanding e.tag = false →
          countAtTrigger d p s = revolutionEnd p e.tag closed)

/-- A slip at a Trigger Unit. It marks every pass of the plan SLIPPED, an OPEN one by its flag too (R91); with jump 0
that is all (R93). A jump skips the OPEN pass's unfired shots at or behind the landing angle, marking it SKIPPED when it
skips one, and closes its revolution when none is left (R92, R96). Then, with no pass OPEN, a PLANNED pass in the
recognised direction in whose extent the angle landed opens with SLIPPED and its shots at or behind the landing angle
skipped (R87). No shot fires. A direction change closes the OPEN pass's revolution with REVERSED, and does nothing with
none OPEN (R97). -/
def Obligations.SlipsAndReversalsAtTheTriggerUnit : Prop :=
  ∀ (p : PortId) (s : State),
    let landing := s.angle.value
    let marked := s.modPort p fun q =>
      { q with queue := q.queue.map fun x =>
          if q.plan.any (·.tag == x.tag) then
            { x with
              marks := { x.marks with slipped := true }
              flags := { x.flags with slipped := x.flags.slipped || x.state == .opened } }
          else x }
    -- the shots at or behind the landing angle are those with an index below `k`
    let behind := fun (e : PlanEntry) (k : Nat) =>
      e.last = e.first + (e.n - 1) * e.step ∧ 1 ≤ e.step ∧ k ≤ e.n
        ∧ ∀ j, j < e.n → (j < k ↔ match e.dir with
            | .forward => e.first + j * e.step ≤ landing
            | .reverse => landing ≤ e.last - j * e.step)
    let skipped := fun (u : State) (opens : Bool) (e : PlanEntry) (k : Nat) =>
      u.modPort p fun q =>
        { q with
          queue := q.queue.map fun x =>
            if x.tag = e.tag then
              { x with
                state := if opens then .opened else x.state
                marks := { x.marks with
                  slipped := x.marks.slipped || opens, skipped := x.marks.skipped || decide (e.next < k) }
                flags := { x.flags with
                  slipped := x.flags.slipped || opens, skipped := x.flags.skipped || decide (e.next < k) } }
            else x
          plan := q.plan.map fun f => if f.tag = e.tag then { f with next := max e.next k } else f }
    let left := fun (u : State) (e : PlanEntry) (k : Nat) =>
      if max e.next k = e.n then closeRevolution p e.tag u else u
    let landsIn := fun (u : State) (f : PlanEntry) =>
      (u.port p).entryIn .planned f = true ∧ f.dir = s.angle.direction ∧ f.first ≤ landing ∧ landing ≤ f.last
    slipAtTrigger false p s = marked
    ∧ (∀ u, ((s.port p).openEntry = none ∧ u = marked)
          ∨ (∃ e k, (s.port p).openEntry = some e ∧ (s.port p).findEntry e.tag = some e ∧ behind e k
              ∧ u = left (skipped marked false e k) e k) →
      ((u.port p).openEntry ≠ none ∨ (∀ f ∈ (u.port p).plan, ¬ landsIn u f) → slipAtTrigger true p s = u)
      ∧ ∀ f k, (u.port p).openEntry = none → f ∈ (u.port p).plan → (∀ g ∈ (u.port p).plan, landsIn u g ↔ g = f) →
          (u.port p).findEntry f.tag = some f → behind f k →
          slipAtTrigger true p s = left (skipped u true f k) f k)
    ∧ (∀ e, (s.port p).openEntry = some e →
      reverseAtTrigger p s = closeRevolution p e.tag (s.modPort p fun q =>
        { q with queue := q.queue.map fun x =>
            if x.tag = e.tag then
              { x with marks := { x.marks with reversed := true }, flags := { x.flags with reversed := true } }
            else x }))
    ∧ ((s.port p).openEntry = none → reverseAtTrigger p s = s)

/-- The close of a pass revolution takes the pass from the plan, releases the entries of its unfired shots and makes it
DRAINING; with no exchange outstanding, or when the last one's record is written, revolution-end processing follows, or
the end with the pending outcome (R49, R54, R79). Revolution-end processing counts the revolution, consults the Edge
Tracker for a pass with the edge flag, and returns the pass to QUEUED with its marks cleared, or ends it COMPLETE or
FLAGGED with its pass-end record and raises the blade's passes completed count (R51, R52, R56, R57, R35). -/
def Obligations.RevolutionEndRequeuesOrEnds : Prop :=
  ∀ (p : PortId) (x : Pass) (s : State), s.findPass p x.tag = some x → ((s.port p).queue.map Pass.tag).Nodup →
    let put := fun (u : State) (f : Pass → Pass) =>
      u.modPort p fun q => { q with queue := q.queue.map fun y => if y.tag = x.tag then f y else y }
    let ended := fun (u : State) (y : Pass) (o : PassOutcome) =>
      (u.modLink y.owner (·.written (.passEnd (passEndRecord p y o)) 3)).modPort p fun q =>
        { q with queue := q.queue.filter fun z => z.tag != y.tag }
    let done := x.revsDone + 1
    let counted := put s fun y => { y with revsDone := y.revsDone + 1 }
    let tracked := if x.edge then consult p { x with revsDone := done } counted else counted
    (∀ e, x.pendingOutcome = none → (s.port p).findEntry x.tag = some e →
      let closed := (put s fun y => { y with state := .draining }).modPort p fun q =>
        { q with plan := q.plan.filter fun f => f.tag != x.tag }
      let closed := closed.modLink x.owner fun l => { l with reserved := l.reserved - (e.n - e.fired) }
      closeRevolution p x.tag s
        = if (s.port p).outstanding x.tag then closed else revolutionEnd p x.tag closed)
    ∧ (x.state ≠ .draining ∨ (s.port p).outstanding x.tag = true → settleDraining p x.tag s = s)
    ∧ (x.state = .draining → (s.port p).outstanding x.tag = false →
      (x.pendingOutcome = none → settleDraining p x.tag s = revolutionEnd p x.tag s)
      ∧ ∀ o, x.pendingOutcome = some o → (o = .aborted ∨ ∃ r, o = .failed r) → settleDraining p x.tag s = ended s x o)
    ∧ (∃ y, tracked.findPass p x.tag = some y ∧ y.revsDone = done ∧ y.flagged = x.flagged ∧ y.fired = x.fired
      ∧ y.clean = x.clean
      ∧ (done < x.repeats →
          revolutionEnd p x.tag s
            = put tracked fun z => { z with state := .queued, marks := ⟨false, false, false⟩ })
      ∧ (x.repeats ≤ done →
          let o : PassOutcome :=
            if y.flagged = 0 ∧ y.flags.reversed = false ∧ y.flags.slipped = false ∧ y.flags.skipped = false
            then .complete else .flagged
          revolutionEnd p x.tag s
            = (ended tracked y o).modPlan fun ps =>
                { ps with blades := ps.blades.map fun b =>
                    if b.number = x.blade then { b with completed := min 65535 (b.completed + 1) } else b }))
    ∧ ∀ ex k, (s.port p).exchange = some ex → ex.phase = .sending → k < ex.frame.length →
      ex.sendTimer = .running (k * ((9 + ex.stopBits) * ex.bitTime / 16)) → ex.shot.isOf x.tag = true →
      (s.port p).slot = none →
      (s.port p).cfg.errLimit = 0 → x.state = .draining → x.pendingOutcome = none → x.edge = false →
      ∃ t, exec (.readBackError p) s = .next t
        ∧ (done < x.repeats → ∃ y, t.findPass p x.tag = some y ∧ y.state = .queued ∧ y.revsDone = done
            ∧ y.marks = ⟨false, false, false⟩ ∧ y.flagged = x.flagged + 1 ∧ y.clean = x.clean)
        ∧ (x.repeats ≤ done →
            s.endedWith t .flagged p { x with revsDone := done, flagged := x.flagged + 1 })

/-- The update of R131 to R133: the error of the measured edge, its step by the gain rounded down, and the
clamped correction written back, recorded in the pass with CLAMPED. No update is made for a revolution marked SLIPPED or
REVERSED, a FIXED blade, a frozen adaptation or a plan in EDIT; and an EMPTY observation gives NO_EDGE instead (R130,
R134). -/
def Obligations.EdgeUpdateMovesTheCorrection : Prop :=
  (∀ (p : PortId) (x : Pass) (b : Blade) (s : State), s.plan.find x.blade = some b →
      let acts : Prop := x.marks.slipped = false ∧ x.marks.reversed = false ∧ b.tracking = .track
        ∧ s.plan.frozen = false ∧ s.plan.state = .active
      (¬ acts → consult p x s = s)
      ∧ (acts → x.observation = .empty →
        consult p x s = s.modPort p fun q =>
          { q with queue := q.queue.map fun y =>
              if y.tag = x.tag then { y with flags := { y.flags with noEdge := true } } else y }))
  ∧ ∀ (p : PortId) (x : Pass) (b : Blade) (mark index angle : Nat) (offset : Int) (s : State),
    s.plan.find x.blade = some b → b.tracking = .track → s.plan.frozen = false → s.plan.state = .active →
    x.marks.slipped = false → x.marks.reversed = false → x.observation = .held index angle offset →
    b.mark = some mark →
      let term : Int := (offset * x.step).tdiv 256
      let error : Int := (match x.dir with | .forward => angle + term | .reverse => angle - term)
        - (mark + b.correction)
      let sum := b.correction + error / (2 ^ s.plan.gain : Nat)
      let corrected := max (-2048) (min 2047 sum)
      consult p x s
        = (s.modPlan fun ps =>
            { ps with blades := ps.blades.map fun y =>
                if y.number = x.blade then { y with correction := corrected } else y }).modPort p fun q =>
            { q with queue := q.queue.map fun y =>
                if y.tag = x.tag then
                  { y with
                    lastEdge := some ⟨error, corrected⟩
                    flags := { y.flags with clamped := y.flags.clamped || decide (sum < -2048 ∨ 2047 < sum) } }
                else y }

/-! ### Trigger lines and head links (5.9, chapter 6) -/

/-- TRIG_PULSE_END ends the pulse once its time is out, and does nothing before (R98; log 4); STRAY_BYTE raises the link
error count in READY and TEST outside a PATTERN test (R122), and leaves a low run of the byte's ten bit times at most,
for the line was high before them (R104, R121; log 17), and nothing else; TAG_FRAME_SENT, once the time of the frame's
bytes is out, and not before (R104; log 4, log 42), enters AWAITING with (20 + L · RTO) bit times on the return timer
(R114, R115), of the RTO and the bit time that the exchange started with, as a whole number of reference periods rounded
down: the model's choices (log 13, log 31); and its stop bits end a low run (R121; log 17). While it sends, the part
drives the line low in the start bits and zero data bits, between the edges that R104 gives, in whole reference periods.
On a fall of the line the receiver samples half a bit time later: high is a glitch, and no byte; else the samples in the
middle of each data bit and of one stop bit are the byte and whether it is well formed (R104; the rounding of a middle
is log 42). A byte with its edges as R104 sets them is received as it was sent, and a glitch changes nothing (R122). -/
def Obligations.PulseStrayAndFrameEvents : Prop :=
  ∀ (p : PortId) (s : State),
    ((s.port p).pulse = .running 0 →
      exec (.trigPulseEnd p) s = .next (s.modPort p fun q => { q with trigger := false, pulse := .stopped }))
    ∧ ((s.port p).pulse ≠ .running 0 → exec (.trigPulseEnd p) s = .next s)
    ∧ (((s.port p).state = .ready ∨ (s.port p).state = .test) → (s.port p).exchange = none →
        (∀ y, (s.port p).test = some y → y.mode.fires = true) →
      exec (.strayByte p) s
        = .next (s.modPort p fun q =>
            { q with
              linkErrors := if q.linkErrors < 255 then q.linkErrors + 1 else 255, lowRun := min 10 q.lowRun }))
    ∧ (∀ y, (s.port p).test = some y → y.mode.fires = false → exec (.strayByte p) s = .next s)
    ∧ (∀ ex, (s.port p).exchange = some ex → (ex.phase ≠ .sending ∨ ex.sendTimer ≠ .running 0) →
      exec (.tagFrameSent p) s = .next s)
    ∧ (∀ ex, (s.port p).exchange = some ex → ex.phase = .sending → ex.sendTimer = .running 0 →
      exec (.tagFrameSent p) s
        = .next (s.modPort p fun q =>
            { q with
              lowRun := 0
              exchange := some
                { ex with
                  phase := .awaiting, sendTimer := .stopped
                  timer := .running ((20 + ex.shot.len * ex.rto) * ex.bitTime / 16) } }))
    ∧ (∀ ex, (s.port p).exchange = some ex → (s.port p).wakePulse = .stopped →
        (∀ y, (s.port p).test = some y → y.mode.fires = true) →
      (s.port p).drivesLow = sendsLow ex.frame ex.stopBits ex.bitTime ex.sendTimer)
    ∧ (∀ (bytes : List Byte) (stopBits bitTime i j t : Nat) (b : Byte),
      let edge := fun (k : Nat) => k * bitTime / 16
      let whole := edge (9 + stopBits)
      bytes[i]? = some b → j < 9 + stopBits → edge j ≤ t → t < edge (j + 1) →
      sendsLow bytes stopBits bitTime (.running (bytes.length * whole - (i * whole + t)))
        = (decide (j = 0) || (decide (j ≤ 8) && !b.getLsbD (j - 1))))
    ∧ (∀ (bitTime : Nat) (level : Nat → Bool),
      let seen := Reception.ofSamples (samplesOf bitTime level)
      (level (bitTime / 32) = true → seen = .glitch)
      ∧ (level (bitTime / 32) = false → ∃ b, seen = .byte b (level (19 * bitTime / 32))
          ∧ ∀ k, k < 8 → b.getLsbD k = level ((2 * (k + 1) + 1) * bitTime / 32)))
    ∧ (∀ (b : Byte) (stop : Bool) (bitTime : Nat), 64 ≤ bitTime →
      Reception.ofSamples (samplesOf bitTime (levelAt (byteLevels b stop) bitTime)) = .byte b stop)
    ∧ receive p s .glitch = s

/-- An exchange that ends as BIT, FRAME or TIMEOUT: the shot's record with that flag and returned length 0 is
the next record of its owner, both error counts rise, and no other port changes (R114, R115, R117, R118). A
record whose owner's link was reset since is discarded (R117). Then the port goes on by R118: at ERR_LIMIT to FAULT with
reason ERRORS, its live passes ended LINK_FAULT (R112), else to the pending shot's exchange or to none. READ_BACK_ERROR
does so at the end of a byte of the tag frame, RETURN_TIMEOUT once the return timer has run out, and neither does anything
at another time (R104, R114, R115; log 4, log 42). -/
def Obligations.ErroredExchangeIsRecorded : Prop :=
  ∀ (p : PortId) (ex : Exchange) (s : State), (s.port p).exchange = some ex →
    let ends := fun (c : Instr) (how : Ending) =>
      ∃ t, exec c s = .next t
        ∧ (t.port p).linkErrors = min 255 ((s.port p).linkErrors + 1)
        ∧ (t.port p).consecutive = min 255 ((s.port p).consecutive + 1)
        ∧ (∀ r, r ≠ p → t.port r = s.port r)
        ∧ (ex.shot.orphan = false →
            ∃ more, (t.link ex.shot.owner).records
              = (s.link ex.shot.owner).records ++ .shot (shotRecord p ex.shot how []) :: more)
        ∧ (ex.shot.orphan = true → (s.port p).cfg.errLimit = 0 → t.links = s.links)
        ∧ s.goesOn t true p
        ∧ ((t.port p).state = .fault → (s.port p).state ≠ .fault → s.passesSound → (s.port p).outcomesWait →
            s.allEndedWith t .linkFault p)
    (s.port p).linkErrors ≤ 255 → (s.port p).consecutive ≤ 255 →
      let atByteEnd : Prop := ex.phase = .sending ∧ ∃ k, k < ex.frame.length
        ∧ ex.sendTimer = .running (k * ((9 + ex.stopBits) * ex.bitTime / 16))
      (atByteEnd → ends (.readBackError p) .bit)
      ∧ (¬ atByteEnd → exec (.readBackError p) s = .next s)
      ∧ (ex.phase = .awaiting → ends (.returnByteFrameError p) .frame)
      ∧ (ex.phase = .awaiting → ex.timer = .running 0 → ends (.returnTimeout p) .timeout)
      ∧ (ex.phase ≠ .awaiting ∨ ex.timer ≠ .running 0 → exec (.returnTimeout p) s = .next s)

/-- A whole return received while it is awaited: CRC, then echo, decide the ending; the data is kept for a clean
or SEQ ending; the record is its owner's next, and the counts follow the ending (R116 to R118). The tallies of
an OPEN pass count it clean or flagged (R50), and an unflagged record with EDGE and without HEAD_FAULT feeds its
observation when its shot index is the lowest so far (R128). Then the port goes on by R118: at ERR_LIMIT to FAULT with
reason ERRORS, its live passes ended LINK_FAULT (R112), else to the pending shot's exchange or to none; a clean ending
never faults it. -/
def Obligations.ReturnIsCheckedAndRecorded : Prop :=
  ∀ (p : PortId) (ex : Exchange) (bytes : List Byte) (s : State),
    ((s.port p).state = .ready ∨ (s.port p).state = .test) → (s.port p).exchange = some ex →
    ex.phase = .awaiting → ex.received = [] → bytes.length = ex.shot.len + 1 → ex.shot.orphan = false →
    (s.port p).linkErrors ≤ 255 → (s.port p).consecutive ≤ 255 →
      let data := bytes.take ex.shot.len
      let seed : Byte := if ex.shot.seeded then ex.shot.frame.headD 0 else 0
      let how : Ending :=
        if headCheck seed data ≠ bytes.getD ex.shot.len 0 then .crc
        else if data.getD 1 0 ≠ ex.shot.index then .seq else .clean
      ∃ t more, exec (.returnFrameReceived p bytes) s = .next t
        ∧ (t.link ex.shot.owner).records
            = (s.link ex.shot.owner).records
              ++ .shot (shotRecord p ex.shot how (if how = .crc then [] else data)) :: more
        ∧ (how = .clean → (t.port p).consecutive = 0 ∧ (t.port p).linkErrors = (s.port p).linkErrors)
        ∧ (how ≠ .clean → (t.port p).consecutive = min 255 ((s.port p).consecutive + 1)
            ∧ (t.port p).linkErrors = min 255 ((s.port p).linkErrors + 1))
        ∧ (∀ x, ex.shot.kind = .pass → s.findPass p ex.shot.tag = some x → x.state = .opened →
            (t.port p).state ≠ .fault →
          let unflagged := decide (how = .clean ∧ ex.shot.slip = false)
          let status := data.headD 0
          let edge : Observation :=
            .held ex.shot.index.toNat ex.shot.angle ((data.getD 5 0 ++ data.getD 4 0 : BitVec 16).toInt)
          t.findPass p x.tag = some
            { x with
              clean := if unflagged then x.clean + 1 else x.clean
              flagged := if unflagged then x.flagged else x.flagged + 1
              observation :=
                if unflagged && status.getLsbD 1 && !status.getLsbD 4 then
                  match x.observation with
                  | .absent => .absent
                  | .empty => edge
                  | .held i a o => if ex.shot.index.toNat < i then edge else .held i a o
                else x.observation })
        ∧ s.goesOn t (decide (how ≠ .clean)) p
        ∧ ((t.port p).state = .fault → s.passesSound → (s.port p).outcomesWait → s.allEndedWith t .linkFault p)

/-- LINE_STUCK, the low run of a watched line reaching 64: FAULT with reason STUCK, the low run stopped at 0, the exchange
in flight recorded as STUCK and counted, no test and no pass left on the port, and PORT_FAULT set on its controller (R121,
R112, R118). Each live pass has ended with its pending outcome, or LINK_FAULT where it had none (R54, R55); of a DRAINING
pass with no pending outcome that had only that exchange outstanding, it is said only that it has ended (its outcome is the
model's choice, log 36). A line that is not watched has no low run, and the port is left as it is (R121). That the command
carries the low bit times that the run still lacks is the model's choice (log 17). -/
def Obligations.StuckLineFaultsThePort : Prop :=
  ∀ (p : PortId) (s : State),
    let watched : Prop := (s.port p).state = .ready ∨ (s.port p).state = .test
      ∨ ((s.port p).state = .waking ∧ (s.port p).wakePulse = .stopped)
    (¬ watched → exec (.lineStuck p) s = .next s)
    ∧ (watched → s.passesSound → (s.port p).outcomesWait →
      ∃ t, exec (.lineStuck p) s = .next t
        ∧ (t.port p).state = .fault ∧ (t.port p).fault = .stuck ∧ (t.port p).exchange = none
        ∧ (t.port p).lowRun = 0
        ∧ (t.port p).test = none ∧ s.allEndedWith t .linkFault p
        ∧ (t.port p).consecutive = (s.port p).consecutive
        ∧ (t.port p).linkErrors = (if (s.port p).exchange.isSome = true ∧ (s.port p).linkErrors < 255 then
            (s.port p).linkErrors + 1 else if (s.port p).exchange.isSome = true then 255 else (s.port p).linkErrors)
        ∧ (∀ ex, (s.port p).exchange = some ex → ex.shot.orphan = false →
            ∃ more, (t.link ex.shot.owner).records
              = (s.link ex.shot.owner).records ++ .shot (shotRecord p ex.shot .stuck []) :: more)
        ∧ (∀ m, s.controller p = some m → (t.link m).flags.getLsbD 5 = true)
        ∧ ∀ r, r ≠ p → t.port r = s.port r)

/-- In WAKING: the end of the pulse starts the wake timer (R107); a ready return makes the port READY (R108); the
wake timer's end faults it with WAKE_TIMEOUT and PORT_FAULT on its controller (R108, R112). The low run starts from 0 at
the end of the pulse and is 0 after a well-formed byte, whose stop bit is high (R107, R121; log 17). Neither
the pulse nor the wake ends before its time is out (log 4). -/
def Obligations.WakeEndsReadyOrInFault : Prop :=
  ∀ (p : PortId) (s : State), (s.port p).state = .waking → s.stallFollows →
    ((s.port p).wakePulse = .running 0 →
      exec (.wakePulseEnd p) s
        = .next (s.modPort p fun q =>
            { q with
              wakePulse := .stopped, wake := .running (q.cfg.wakeTime * 40000), lowRun := 0, bitLeft := 0 }))
    ∧ (∀ b0 b1 : Byte, (s.port p).wakePulse = .stopped → (s.port p).wakeBytes = [] → b0.getLsbD 0 = true →
      exec (.readyReturn p [b0, b1, headCheck 0 [b0, b1]]) s
        = .next (s.modPort p fun q => { q with state := .ready, wake := .stopped, wakeBytes := [], lowRun := 0 }))
    ∧ (∀ b0 b1 c : Byte, (s.port p).wakePulse = .stopped → (s.port p).wakeBytes = [] →
        (b0.getLsbD 0 = false ∨ c ≠ headCheck 0 [b0, b1]) →
      exec (.readyReturn p [b0, b1, c]) s = .next (s.modPort p fun q => { q with wakeBytes := [b0, b1, c], lowRun := 0 }))
    ∧ ((s.port p).wakePulse ≠ .running 0 → exec (.wakePulseEnd p) s = .next s)
    ∧ ((s.port p).wake ≠ .running 0 → exec (.wakeTimeout p) s = .next s)
    ∧ ((s.port p).wake = .running 0 → (s.port p).queue = [] → (s.port p).test = none →
      exec (.wakeTimeout p) s
        = .next (raiseController .portFault p (s.modPort p fun q =>
            { q with
              fault := .wakeTimeout, state := .fault, wakePulse := .stopped, wake := .stopped, wakeBytes := []
              lowRun := 0, bitLeft := 0 })))

/-- PORT_ON in OFF and RESUME_PORT in FAULT start a wake with its pulse of 16 bit times, and are refused WRONG_STATE
otherwise (R107, R111). PORT_OFF by port state (R109): OFF unchanged, WAKING, FAULT and an idle READY to OFF with
the fault reason and the two error counts cleared, BUSY for live passes with force clear, RANGE for a force flag
above 1. -/
def Obligations.PortOnResumeAndOffByState : Prop :=
  (∀ (m : Master) (p : PortId) (s : State), s.listens m → s.controller p = some m →
      let port : Byte := byteOf p.val
      ((s.port p).state = .off →
        exec (.portOn m port) s
          = .next ((s.modPort p fun q =>
              { q with
                state := .waking, wakePulse := .running (16 * q.cfg.divisor + q.cfg.fraction)
                wake := .stopped, wakeBytes := [], lowRun := 0, bitLeft := 0 }).answered m 0x30 [port] .ok [1]))
      ∧ ((s.port p).state ≠ .off → exec (.portOn m port) s = .next (s.answered m 0x30 [port] .wrongState []))
      ∧ ((s.port p).state = .fault →
        exec (.resumePort m port) s
          = .next ((s.modPort p fun q =>
              { q with
                fault := .none, consecutive := 0
                state := .waking, wakePulse := .running (16 * q.cfg.divisor + q.cfg.fraction)
                wake := .stopped, wakeBytes := [], lowRun := 0, bitLeft := 0 }).answered m 0x32 [port] .ok [1]))
      ∧ ((s.port p).state ≠ .fault → exec (.resumePort m port) s = .next (s.answered m 0x32 [port] .wrongState [])))
  ∧ (∀ (m : Master) (p : PortId) (force : Byte) (s : State), s.listens m → s.controller p = some m →
      let port : Byte := byteOf p.val
      let off := s.modPort p fun q =>
        { q with
          state := .off, fault := .none, consecutive := 0, linkErrors := 0, lowRun := 0, bitLeft := 0
          wakePulse := .stopped, wake := .stopped, wakeBytes := [] }
      (1 < force.toNat → exec (.portOff m port force) s = .next (s.answered m 0x31 [port, force] .range []))
      ∧ (force.toNat ≤ 1 → (s.port p).state = .off →
        exec (.portOff m port force) s = .next (s.answered m 0x31 [port, force] .ok [0]))
      ∧ (force.toNat ≤ 1 → ((s.port p).state = .waking ∨ (s.port p).state = .fault
          ∨ ((s.port p).state = .ready ∧ (s.port p).queue = [] ∧ (s.port p).exchange = none)) →
        exec (.portOff m port force) s = .next (off.answered m 0x31 [port, force] .ok [0]))
      ∧ ((s.port p).state = .ready → (s.port p).queue ≠ [] →
        exec (.portOff m port 0) s = .next (s.answered m 0x31 [port, 0] .busy [])))

/-- PORT_OFF that ends work (R109, R110): the exchange in flight is recorded as ABORTED, forced live passes end,
a test ends with TEST_END on the controller, and the port is OFF; no other port changes. Each live pass of a forced
PORT_OFF has ended with its pending outcome, or PORT_OFF where it had none (R54, R55); of a DRAINING pass with no pending
outcome that had only that exchange outstanding, it is said only that it has ended (its outcome is the model's choice,
log 36). -/
def Obligations.PortOffEndsTheWork : Prop :=
  ∀ (m : Master) (p : PortId) (force : Byte) (s : State), s.listens m → s.controller p = some m →
    force.toNat ≤ 1 → s.passesSound → (s.port p).outcomesWait →
    let port : Byte := byteOf p.val
    let ended := fun (t : State) =>
      (t.port p).state = .off ∧ (t.port p).exchange = none ∧ (t.port p).consecutive = 0
        ∧ (t.port p).linkErrors = 0 ∧ (t.link m).reply = replyFrame .ok [0]
        ∧ (∀ r, r ≠ p → t.port r = s.port r)
        ∧ ∀ ex, (s.port p).exchange = some ex → ex.shot.orphan = false →
            ∃ more, (t.link ex.shot.owner).records
              = (s.link ex.shot.owner).records ++ .shot (shotRecord p ex.shot .aborted []) :: more
    ((s.port p).state = .ready → (s.port p).queue = [] → (s.port p).exchange ≠ none →
      ∃ t, exec (.portOff m port force) s = .next t ∧ ended t)
    ∧ ((s.port p).state = .ready → (s.port p).queue ≠ [] → force = 1 →
      ∃ t, exec (.portOff m port force) s = .next t ∧ ended t ∧ s.allEndedWith t .portOff p)
    ∧ ((s.port p).state = .test →
      ∃ t, exec (.portOff m port force) s = .next t ∧ ended t ∧ (t.port p).test = none
        ∧ (t.link m).flags.getLsbD 6 = true)

/-- SET_PORT_CONFIG: the read form from any master, an accepted write, and the refusals after the controller check,
each with the parameters in force (R105). READ_PORT_COUNTERS from the controller: the counts as they stand, three
of which are then 0 (R123). -/
def Obligations.PortConfigAndCounters : Prop :=
  (∀ (m : Master) (p : PortId) (s : State), s.listens m →
      let port : Byte := byteOf p.val
      exec (.setPortConfig m port none) s = .next (s.answered m 0x33 [port] .ok (s.port p).cfg.bytes)
      ∧ ∀ c : PortParams, s.controller p = some m →
        let idle : Prop := (s.port p).state = .off ∨ ((s.port p).state = .ready ∧ (s.port p).queue = [])
        let inRange : Prop :=
          4 ≤ c.divisor.toNat ∧ c.fraction.toNat ≤ 15 ∧ 1 ≤ c.stopBits.toNat ∧ c.stopBits.toNat ≤ 2
            ∧ 10 ≤ c.rto.toNat ∧ c.rto.toNat ≤ 40 ∧ c.errLimit.toNat ≤ 15 ∧ 1 ≤ c.trigWidth.toNat
            ∧ 10 ≤ c.wakeTime.toNat ∧ c.wakeTime.toNat ≤ 2550 ∧ c.wakeTime.toNat % 10 = 0
        let cfg : PortConfig :=
          { divisor := c.divisor.toNat, fraction := c.fraction.toNat, stopBits := c.stopBits.toNat
            rto := c.rto.toNat, errLimit := c.errLimit.toNat, trigWidth := c.trigWidth.toNat
            wakeTime := c.wakeTime.toNat }
        (idle → inRange →
          exec (.setPortConfig m port (some c)) s
            = .next ((s.modPort p fun q => { q with cfg := cfg }).answered m 0x33 (portParams port (some c)) .ok
                cfg.bytes))
        ∧ (¬ idle →
          exec (.setPortConfig m port (some c)) s
            = .next (s.answered m 0x33 (portParams port (some c)) .wrongState (s.port p).cfg.bytes))
        ∧ (idle → ¬ inRange →
          exec (.setPortConfig m port (some c)) s
            = .next (s.answered m 0x33 (portParams port (some c)) .range (s.port p).cfg.bytes)))
  ∧ (∀ (m : Master) (p : PortId) (s : State), s.listens m → s.controller p = some m →
      let q := s.port p
      exec (.readPortCounters m (byteOf p.val)) s
        = .next ((s.modPort p fun q => { q with linkErrors := 0, testSkips := 0, patternErrors := 0 }).answered m 0x34
            [byteOf p.val] .ok
            ([byteOf q.state.code, byteOf q.fault.code, byteOf q.consecutive, byteOf q.linkErrors,
                byteOf q.testSkips] ++ leBytes 2 q.patternErrors ++ [byteOf q.checker.code])))

/-! ### Test modes (chapter 10) -/

/-- START_TEST from the controller, by the checks of R160 in order, and the test begun: SHOT with its interval timer
(R162), SWEEP waiting (R163), PATTERN with its counts and checker cleared, and ECHO_ON on the line with the ECHO loop
(R168), whose bytes take the time of their bits (R104; log 42). The model's choices: the generator's start, in the form
that gives R169's fifteen ones (log 16); a checker taken from SYNCED to HUNTING raises no notice (log 28); the ECHO_ON
frame takes the revolution number as it stands at START_TEST (log 34). -/
def Obligations.StartTestBeginsATest : Prop :=
  ∀ (m : Master) (p : PortId) (x : TestParams) (s : State), s.listens m → s.controller p = some m →
    let port : Byte := byteOf p.val
    let answers := fun (t : State) (status : Status) (data : List Byte) =>
      exec (.startTest m port x) s = .next (t.answered m 0x35 (testParams port x) status data)
    let begun := fun (mode : TestMode) =>
      s.modPort p fun q => { q with state := .test, test := some { recipient := m, counter := 0, mode := mode } }
    let pattern := fun (loop : Loop) (phase : PatternPhase) (sending : List Byte) (count : Nat) =>
      s.modPort p fun q =>
        { q with
          state := .test, patternErrors := 0, checker := .hunting
          test := some
            { recipient := m, counter := 0
              mode := .pattern
                { loop := loop, phase := phase, sending := sending, bits := [], sendTimer := q.sendTime count
                  generator := 0x2AAA
                  register := 0, filled := 0, waiting := [], blockBits := 0, blockErrors := 0, insert := false, stopping := false
                  echoTimer := .stopped } } }
    let length := fun (b : Byte) => b.toNat = 2 ∨ b.toNat = 4 ∨ b.toNat = 6 ∨ b.toNat = 8
    let time := x.b0.toNat + 256 * x.b1.toNat
    let shot : Prop := x.mode = 1 ∧ 1 ≤ time ∧ time ≤ 1000 ∧ length x.b2
    let sweep : Prop := x.mode = 2 ∧ 1 ≤ time ∧ 1 ≤ x.b2.toNat ∧ x.b2.toNat ≤ 16 ∧ length x.b3
    ((s.port p).state ≠ .ready → answers s .wrongState [])
    ∧ ((s.port p).state = .ready → ((s.port p).queue ≠ [] ∨ (s.port p).exchange ≠ none) → answers s .busy [])
    ∧ ((s.port p).state = .ready → (s.port p).queue = [] → (s.port p).exchange = none →
      (¬ shot → ¬ sweep → ¬ (x.mode = 3 ∧ x.b0.toNat ≤ 1) → answers s .range [])
      ∧ (sweep → s.angle.lock ≠ .locked → answers s .wrongState [])
      ∧ (shot ∨ (sweep ∧ s.angle.lock = .locked) → s.permit.permit = .notPermitted → answers s .notPermitted [])
      ∧ (shot → s.permit.permit = .permitted →
          answers (begun (.shot x.b2.toNat time (.running (time * 40000)))) .ok [3])
      ∧ (sweep → s.angle.lock = .locked → s.permit.permit = .permitted →
          answers (begun (.sweep x.b3.toNat time x.b2.toNat .waiting)) .ok [3])
      ∧ (x.mode = 3 → x.b0 = 0 → answers (pattern .internal .byte [] 1) .ok [3])
      ∧ (x.mode = 3 → x.b0 = 1 →
          answers (pattern .echo .echoOn (tagFrame .echoOn p.val 0 s.angle.revolution) 4) .ok [3]))

/-- STOP_TEST and INSERT_ERROR from the controller: refused outside a test (R161, R171); SHOT, SWEEP and the
INTERNAL loop end at once with TEST_END, a pending test shot recorded as ABORTED (R166); the ECHO loop sets
stopping (R172); INSERT_ERROR sets insert pending in a PATTERN test (R171). -/
def Obligations.StopTestAndInsertError : Prop :=
  ∀ (m : Master) (p : PortId) (s : State), s.listens m → s.controller p = some m →
    let port : Byte := byteOf p.val
    let stops := fun (t : State) (status : Status) (data : List Byte) =>
      exec (.stopTest m port) s = .next (t.answered m 0x36 [port] status data)
    let inserts := fun (t : State) (status : Status) =>
      exec (.insertError m port) s = .next (t.answered m 0x37 [port] status [])
    ((s.port p).state ≠ .test → stops s .wrongState [] ∧ inserts s .wrongState)
    ∧ ∀ y : Test, (s.port p).state = .test → (s.port p).test = some y →
      let with' := fun (pt : Pattern) =>
        s.modPort p fun q => { q with test := some { y with mode := .pattern pt } }
      (y.mode.fires = true → inserts s .wrongState)
      ∧ ((∀ pt, y.mode = .pattern pt → pt.loop = .internal) →
        ((s.port p).slot = none →
          stops (raise .testEnd m (s.modPort p fun q => { q with test := none, state := .ready })) .ok [2])
        ∧ ∀ sh, (s.port p).slot = some sh → sh.orphan = false →
          ∃ t, exec (.stopTest m port) s = .next t
            ∧ (t.port p).slot = none ∧ (t.port p).test = none ∧ (t.port p).state = .ready
            ∧ (t.port p).exchange = (s.port p).exchange
            ∧ (t.link sh.owner).records
                = (s.link sh.owner).records ++ [.shot (shotRecord p sh .aborted [])]
            ∧ (t.link m).flags.getLsbD 6 = true ∧ (t.link m).reply = replyFrame .ok [2])
      ∧ ∀ pt, y.mode = .pattern pt →
        (pt.loop = .echo → stops (with' { pt with stopping := true, waiting := [] }) .ok [3])
        ∧ (pt.stopping = true → inserts s .wrongState)
        ∧ (pt.stopping = false → pt.insert = true → inserts s .busy)
        ∧ (pt.stopping = false → pt.insert = false → inserts (with' { pt with insert := true }) .ok)

/-- INTERVAL_TIMER_EXPIRY, once the interval timer of a SHOT test has run out, and not before (log 4): without a free
entry the test-skip count rises, stopping at 255; with one, under the permit and with the port's line free, the entry is
reserved, the line is driven, the shot is stamped and its exchange starts, and the counter rises. The timer restarts
either way (R162, R164, R173). -/
def Obligations.IntervalExpiryFiresATestShot : Prop :=
  (∀ (p : PortId) (s : State),
      (∀ y len interval, (s.port p).test = some y → y.mode ≠ .shot len interval (.running 0)) →
      exec (.intervalTimerExpiry p) s = .next s)
  ∧ ∀ (p : PortId) (y : Test) (len interval : Nat) (s : State),
    (s.port p).test = some y → y.mode = .shot len interval (.running 0) →
    let used := (s.link y.recipient).records.length + (s.link y.recipient).reserved
    let again : TestMode := .shot len interval (.running (interval * 40000))
    (128 ≤ used →
      exec (.intervalTimerExpiry p) s
        = .next (s.modPort p fun q =>
            { q with testSkips := min 255 (q.testSkips + 1), test := some { y with mode := again } }))
    ∧ (used < 128 → s.permit.permit = .permitted → (s.port p).exchange = none →
      let sh : Shot :=
        { kind := .test, tag := ⟨p.val, by omega⟩, owner := y.recipient, blade := 0, index := y.counter
          angle := s.angle.value, revolution := s.angle.revolution, slip := s.angle.suspect, len := len
          seeded := false, orphan := false }
      exec (.intervalTimerExpiry p) s
        = .next ((s.modLink y.recipient fun l => { l with reserved := l.reserved + 1 }).modPort p fun q =>
            { q with
              trigger := true, pulse := .running (q.cfg.trigWidth * 40)
              exchange := some
                { shot := sh, frame := sh.frame, sendTimer := q.sendTime 4, phase := .sending, received := []
                  timer := .stopped, bitTime := q.cfg.bitTime, stopBits := q.cfg.stopBits, rto := q.cfg.rto }
              test := some { y with counter := y.counter + 1, mode := again } }))

/-- A running SWEEP test. The first origin event begins it in the direction of the event with REVS revolutions, each later
one lowers them by 1 or ends the test, and the next position is the first multiple of STEP at or ahead of the angle
(R163). A count in the sweep direction onto the next position makes a test shot due, which is reserved and fired, waits
behind an exchange, or is skipped for want of a free entry, and the next position moves on to the first multiple strictly
ahead (R164). A jump makes it the first multiple strictly ahead of the landing angle, and a direction change ends the
test (R165). In WAITING only an origin event acts (R163). -/
def Obligations.SweepRunsOverItsPositions : Prop :=
  ∀ (d : Direction) (p : PortId) (y : Test) (len step revs : Nat) (s : State), (s.port p).test = some y →
    1 ≤ step → s.angle.value < s.angle.cfg.cpr →
    let becomes := fun (u : State) (ph : SweepPhase) =>
      u.modPort p fun q => { q with test := q.test.map fun z => { z with mode := .sweep len step revs ph } }
    let next := fun (dir : Direction) (at_ : Bool) (n : Option Nat) =>
      firstMultiple dir at_ step s.angle.cfg.cpr s.angle.value n
    let ends := fun (t : State) =>
      (t.port p).test = none ∧ (t.port p).state = .ready ∧ (t.port p).slot = none
        ∧ (t.port p).exchange = (s.port p).exchange
        ∧ (∀ m, s.controller p = some m → (t.link m).flags.getLsbD 6 = true)
        ∧ ∀ sh, (s.port p).slot = some sh → sh.orphan = false →
            (t.link sh.owner).records = (s.link sh.owner).records ++ [.shot (shotRecord p sh .aborted [])]
    (y.mode = .sweep len step revs .waiting →
      (∃ n, next d true n ∧ originAtSweep d p s = becomes s (.running d n revs))
      ∧ countAtSweep d p s = s ∧ jumpAtSweep p s = s ∧ reverseAtSweep p s = s)
    ∧ ∀ (dir : Direction) (at_ : Option Nat) (remaining : Nat),
      y.mode = .sweep len step revs (.running dir at_ remaining) →
      (2 ≤ remaining →
        ∃ n, next dir true n ∧ originAtSweep d p s = becomes s (.running dir n (remaining - 1)))
      ∧ (remaining ≤ 1 → ends (originAtSweep d p s))
      ∧ (∃ n, next dir false n ∧ jumpAtSweep p s = becomes s (.running dir n remaining))
      ∧ ends (reverseAtSweep p s)
      ∧ (dir ≠ d ∨ at_ ≠ some s.angle.value → countAtSweep d p s = s)
      ∧ (dir = d → at_ = some s.angle.value → ∃ n, next dir false n ∧
        let used := (s.link y.recipient).records.length + (s.link y.recipient).reserved
        let sh : Shot :=
          { kind := .test, tag := ⟨p.val, by omega⟩, owner := y.recipient, blade := 0, index := y.counter
            angle := s.angle.value, revolution := s.angle.revolution, slip := s.angle.suspect, len := len
            seeded := false, orphan := false }
        let fired := (s.modLink y.recipient fun l => { l with reserved := l.reserved + 1 }).modPort p fun q =>
          { q with
            trigger := true, pulse := .running (q.cfg.trigWidth * 40)
            test := q.test.map fun z => { z with counter := z.counter + 1 } }
        (128 ≤ used →
          countAtSweep d p s
            = becomes (s.modPort p fun q => { q with testSkips := min 255 (q.testSkips + 1) })
                (.running dir n remaining))
        ∧ (used < 128 → s.permit.permit = .permitted →
          ((s.port p).exchange = none →
            countAtSweep d p s
              = becomes (fired.modPort p fun q =>
                  { q with
                    exchange := some
                      { shot := sh, frame := sh.frame, sendTimer := q.sendTime 4, phase := .sending, received := []
                        timer := .stopped, bitTime := q.cfg.bitTime, stopBits := q.cfg.stopBits, rto := q.cfg.rto } })
                (.running dir n remaining))
          ∧ ((s.port p).exchange ≠ none → (s.port p).slot = none →
            countAtSweep d p s
              = becomes (fired.modPort p fun q => { q with slot := some sh }) (.running dir n remaining))
          ∧ ((s.port p).exchange ≠ none → (s.port p).slot ≠ none →
            countAtSweep d p s
              = becomes (fired.modLink y.recipient (·.written (.shot (shotRecord p sh .overrun [])) 1))
                (.running dir n remaining))))

/-- The events of a running PATTERN test, each in its phase: ECHO_ON and ECHO_OFF frames with a read-back mismatch
counted once (R168, R172), pattern bytes and their echoes or missing echoes (R169); with the INTERNAL loop nothing is
put on the line (R168). The model's choices: the bits of an INTERNAL byte reach the checker at PATTERN_BYTE_SENT (log
15); the echo wait is a whole number of reference periods rounded down (log 31); the ECHO_OFF frame takes the revolution
number as the part turns to it (log 34); a mismatch is counted at the frame's end (log 37); a frame that reads back
correctly ends a low run with its stop bits (R121; log 17); an echo leaves a low run no longer than the low bit times
with which it ends, its stop bit counted among them whether or not it has it, since the line was high before (R104,
R121; log 17). A frame takes the time of four bytes and a pattern byte that of one, with both loops (R104, R169; log
42); none has gone out before its time is out, and an echo is not missing before the wait is over (R169; log 4). -/
def Obligations.PatternTestOnTheLine : Prop :=
  ∀ (p : PortId) (y : Test) (pt : Pattern) (s : State), (s.port p).test = some y → y.mode = .pattern pt →
    let becomes := fun (x : Pattern) => s.modPort p fun q => { q with test := some { y with mode := .pattern x } }
    let off := tagFrame .echoOff p.val 0 s.angle.revolution
    let sent := fun (bad : Bool) (s : State) =>
      s.modPort p fun q =>
        { q with
          linkErrors := if bad then min 255 (q.linkErrors + 1) else q.linkErrors
          lowRun := if bad then q.lowRun else 0 }
    (∀ bad, pt.phase ≠ .echoOn ∨ pt.sendTimer ≠ .running 0 → exec (.echoOnSent p bad) s = .next s)
    ∧ (∀ bad, pt.phase ≠ .echoOff ∨ pt.sendTimer ≠ .running 0 → exec (.echoOffSent p bad) s = .next s)
    ∧ (pt.phase ≠ .byte ∨ pt.sendTimer ≠ .running 0 → exec (.patternByteSent p) s = .next s)
    ∧ ((s.port p).exchange = none → (s.port p).wakePulse = .stopped →
      (s.port p).drivesLow
        = sendsLow pt.onLine (s.port p).cfg.stopBits (s.port p).cfg.bitTime pt.sendTimer)
    ∧ (∀ bad, pt.phase = .echoOn → pt.sendTimer = .running 0 →
      (pt.stopping = false →
        exec (.echoOnSent p bad) s
          = .next (sent bad (becomes { pt with phase := .byte, sending := [], bits := [], sendTimer := (s.port p).sendTime 1 })))
      ∧ (pt.stopping = true →
        exec (.echoOnSent p bad) s
          = .next (sent bad
              (becomes { pt with phase := .echoOff, sending := off, bits := [], sendTimer := (s.port p).sendTime 4 }))))
    ∧ (pt.phase = .byte → pt.sendTimer = .running 0 → pt.loop = .echo →
      exec (.patternByteSent p) s
        = .next (becomes
            { pt with
              sending := [byteOfBits pt.bits], bits := [], sendTimer := .stopped, phase := .echo
              echoTimer := .running (20 * (s.port p).cfg.bitTime / 16) }))
    ∧ (pt.phase = .byte → pt.sendTimer = .running 0 → pt.loop = .internal → pt.stopping = false → pt.waiting = [] →
      ∃ t r, exec (.patternByteSent p) s = .next t
        ∧ r = checkBits (s.port p).checker pt.bits
            ((s.port p).patternErrors, { pt with bits := [], sendTimer := (s.port p).sendTime 1 })
        ∧ r.2.sending = pt.sending
        ∧ (t.port p).patternErrors = r.1 ∧ (t.port p).test = some { y with mode := .pattern r.2 })
    ∧ (pt.phase ≠ .echo ∨ pt.echoTimer ≠ .running 0 → exec (.echoMissing p) s = .next s)
    ∧ (∀ i, ((i = .echoMissing p ∧ pt.echoTimer = .running 0) ∨ ∃ b, i = .patternEchoReceived p b) → pt.phase = .echo →
      let bits := match i with | .patternEchoReceived _ b => bitsOfByte b | _ => List.replicate 8 true
      let run := fun (old : Nat) => match i with | .patternEchoReceived _ b => min (lowTail b) old | _ => old
      (pt.stopping = true →
        exec i s
          = .next ((becomes
              { pt with
                phase := .echoOff, sending := off, bits := [], sendTimer := (s.port p).sendTime 4
                echoTimer := .stopped }).modPort p fun q => { q with lowRun := run q.lowRun }))
      ∧ (pt.stopping = false → pt.waiting = [] →
        ∃ t r, exec i s = .next t
          ∧ r = checkBits (s.port p).checker bits
              ((s.port p).patternErrors,
                { pt with phase := .byte, bits := [], sendTimer := (s.port p).sendTime 1, echoTimer := .stopped })
          ∧ (t.port p).lowRun = run (s.port p).lowRun
          ∧ (t.port p).patternErrors = r.1 ∧ (t.port p).test = some { y with mode := .pattern r.2 }))
    ∧ (∀ b : Byte, (b = 0 → lowTail b = 10)
        ∧ ∀ k, k < 8 → b.getLsbD (7 - k) = true → (∀ j, j < k → b.getLsbD (7 - j) = false) → lowTail b = k + 1)
    ∧ ∀ bad, pt.phase = .echoOff → pt.sendTimer = .running 0 → (s.port p).slot = none →
      exec (.echoOffSent p bad) s
        = .next (raiseController .testEnd p (sent bad (s.modPort p fun q =>
            { q with test := none, state := .ready })))

/-- The bits a PATTERN test sends: the first fifteen are 1, and every later one is the exclusive-or of the bits 15 and
14 places before it (R169); an insertion inverts the first bit sent after it and no other (R171). Of a byte under way
each data bit is sent in the period that reaches its edge (R104; log 15, log 42), so that an insertion in the middle of
a byte inverts the next bit of that byte and is no longer pending from then on; no other period sends one. The checker
(R170): until it has held 15 bits it only shifts; then it compares each bit with the predicted one, following the line
in HUNTING and its own copy in SYNCED. PATTERN_BLOCK_JUDGED moves it, with PATTERN on the controller at a change; that
block bits stands at 64 until then is the model's choice (log 14). -/
def Obligations.PatternIsGeneratedAndChecked : Prop :=
  (∀ (loop : Loop) (sending : List Byte) (n k : Nat),
      let bits := ((Pattern.start loop sending).sendBits n).1
      (k < 15 → k < n → bits[k]? = some true)
      ∧ (k + 15 < n → ∃ a b, bits[k]? = some a ∧ bits[k + 1]? = some b ∧ bits[k + 15]? = some (a ^^ b))
      ∧ ∀ pt : Pattern, pt.insert = false →
        (Pattern.sendBits (n + 1) { pt with insert := true }).1
            = (Pattern.sendBits (n + 1) pt).1.modifyHead (!·)
          ∧ (Pattern.sendBits (n + 1) { pt with insert := true }).2 = (Pattern.sendBits (n + 1) pt).2)
  ∧ (∀ (c : PortConfig) (pt : Pattern) (left : Nat),
      let bitTime := 16 * c.divisor + c.fraction
      let edge := fun (k : Nat) => k * bitTime / 16
      let whole := edge (9 + c.stopBits)
      let k := pt.bits.length
      let passed := { pt with sendTimer := pt.sendTimer.tick, echoTimer := pt.echoTimer.tick }
      (pt.phase = .byte → pt.sendTimer.tick = .running left → 64 ≤ bitTime → k < 8 →
          whole - left = edge (k + 1) →
        TestMode.tick c (.pattern pt)
          = .pattern { (passed.sendBits 1).2 with bits := pt.bits ++ (passed.sendBits 1).1 })
      ∧ (pt.phase = .byte → pt.sendTimer.tick = .running left → 64 ≤ bitTime → k ≤ 8 →
          edge k ≤ whole - left → (k < 8 → whole - left < edge (k + 1)) → TestMode.tick c (.pattern pt) = .pattern passed)
      ∧ (pt.phase ≠ .byte ∨ pt.sendTimer = .stopped → TestMode.tick c (.pattern pt) = .pattern passed))
  ∧ (∀ (p : PortId) (y : Test) (pt : Pattern) (s : State),
      (∀ (c : CheckerState) (errors : Nat) (b : Bool), pt.blockBits < 64 →
        let joined := fun (b : Bool) => (pt.register <<< 1) ||| (if b then 1#15 else 0#15)
        let predicted := pt.register.getLsbD 14 ^^ pt.register.getLsbD 13
        (pt.filled < 15 →
          checkBits c [b] (errors, pt)
            = (errors, { pt with register := joined b, filled := pt.filled + 1, waiting := [] }))
        ∧ (15 ≤ pt.filled →
          checkBits c [b] (errors, pt)
            = (if b ≠ predicted ∧ c = .synced then min 65535 (errors + 1) else errors,
                { pt with
                  register := joined (match c with | .hunting => b | .synced => predicted)
                  blockBits := pt.blockBits + 1
                  blockErrors := if b ≠ predicted then pt.blockErrors + 1 else pt.blockErrors
                  waiting := [] })))
      ∧ ((s.port p).test = some y → y.mode = .pattern pt → pt.blockBits = 64 → pt.waiting = [] →
        let goes := fun (c : CheckerState) =>
          s.modPort p fun q =>
            { q with checker := c, test := some { y with mode := .pattern { pt with blockBits := 0, blockErrors := 0 } } }
        let judged := fun (t : State) => exec (.patternBlockJudged p) s = .next t
        ((s.port p).checker = .hunting → pt.blockErrors ≤ 2 → judged (raiseController .pattern p (goes .synced)))
        ∧ ((s.port p).checker = .hunting → 2 < pt.blockErrors → judged (goes .hunting))
        ∧ ((s.port p).checker = .synced → 8 ≤ pt.blockErrors → judged (raiseController .pattern p (goes .hunting)))
        ∧ ((s.port p).checker = .synced → pt.blockErrors < 8 → judged (goes .synced))))

/-! ### Reads, results, notices and resets (chapters 3 and 11) -/

/-- QUERY_PASS from any master: the pass record and its place in the port queue (R60). READ_STATUS: the forty
bytes of 12.3.1, after which the link's abandoned count is 0 (R185). The model's choice: bit 5 of the pass flags byte of
QUERY_PASS, which R60 does not list (log 19); the handover time left is rounded by a free value (log 6). -/
def Obligations.QueryAndStatusReadTheState : Prop :=
  ∀ (m : Master) (s : State), s.listens m →
    (∀ (tag : Tag) (p : PortId) (x : Pass) (before after : List Pass),
      x.tag = tag → (s.port p).queue = before ++ x :: after → (∀ y ∈ before, y.tag ≠ tag) →
      (∀ r, r ≠ p → s.findPass r tag = none) →
        exec (.queryPass m (byteOf tag.val)) s
          = .next (s.answered m 0x43 [byteOf tag.val] .ok
              ([byteOf x.owner.val, byteOf p.val, x.blade, byteOf x.dir.code] ++ leBytes 2 x.step
                ++ [byteOf x.n, byteOf x.len, x.options, byteOf x.repeats, byteOf x.revsDone] ++ leBytes 2 x.fired
                ++ leBytes 2 x.clean ++ leBytes 2 x.flagged
                ++ [passFlagsByte x.flags x.lastEdge, byteOf x.state.code,
                    byteOf ((x.pendingOutcome.map PassOutcome.code).getD 0),
                    byteOf ((x.pendingOutcome.map PassOutcome.reasonCode).getD 0), byteOf before.length])))
    ∧ (∀ tag : Tag, (∀ x ∈ s.livePasses, x.tag ≠ tag) →
      exec (.queryPass m (byteOf tag.val)) s = .next (s.answered m 0x43 [byteOf tag.val] .noSuchPass []))
    ∧ ∃ data : List Byte, data.length = 40
      ∧ data = leBytes 3 s.angle.value ++ leBytes 3 s.angle.revolution.toNat
          ++ [byteOf (s.angle.lock.code + 4 * s.angle.direction.code + if s.angle.suspect then 8 else 0),
              byteOf (s.permit.permit.code + 2 * s.permit.qualification.code + 8 * s.permit.hold.toNat
                + 64 * s.plan.state.code)]
          ++ ([0, 1, 2, 3, 4] : List ClaimId).flatMap (fun c =>
              byteOf ((s.claim c).code + 4 * masterBits (s.claim c).holder? + 16 * masterBits (s.claim c).claimant?)
                :: leBytes 2 (s.claim c).millis)
          ++ ([0, 1, 2, 3] : List PortId).flatMap (fun p =>
              [byteOf ((s.port p).state.code + 8 * (s.port p).fault.code), byteOf (s.port p).queue.length,
                byteOf (s.port p).plan.length])
          ++ [byteOf (s.link m).records.length, byteOf (s.link m).reserved, byteOf (s.link m).abandoned,
              (s.link m).flags, (s.link m).enables]
      ∧ exec (.readStatus m) s
          = .next ((s.modLink m fun l => { l with abandoned := 0 }).answered m 0x53 [] .ok data)

/-- FETCH: the oldest record leaves the list and is the reply with the counts after it; with none, EMPTY with the
counts (R180). -/
def Obligations.FetchTakesTheOldestRecord : Prop :=
  ∀ (m : Master) (s : State), s.listens m →
    ((s.link m).records = [] →
      exec (.fetch m) s = .next (s.answered m 0x50 [] .empty [0, byteOf (s.link m).reserved]))
    ∧ ∀ r rest, (s.link m).records = r :: rest →
      exec (.fetch m) s
        = .next ((s.modLink m fun l => { l with records := rest }).answered m 0x50 [] .ok
            (r.bytes ++ [byteOf rest.length, byteOf (s.link m).reserved]))

/-- CLEAR_NOTICES clears the flags of its mask (R182); SET_NOTICE_ENABLE reads or replaces the enables (R183); both
drive the attention line anew, ACTIVE exactly while a flag is both set and enabled. -/
def Obligations.NoticesAreClearedAndEnabled : Prop :=
  ∀ (m : Master) (s : State), s.listens m →
    (∀ mask : Byte,
      let flags := (s.link m).flags &&& ~~~mask
      exec (.clearNotices m mask) s
        = .next ((s.modLink m fun l =>
            { l with flags := flags, attention := (flags &&& l.enables) != 0 }).answered m 0x51 [mask] .ok
              [flags, (s.link m).enables]))
    ∧ exec (.setNoticeEnable m none) s
        = .next (s.answered m 0x52 [] .ok [(s.link m).enables, (s.link m).flags])
    ∧ ∀ e : Byte,
      exec (.setNoticeEnable m (some e)) s
        = .next ((s.modLink m fun l => { l with enables := e, attention := (l.flags &&& e) != 0 }).answered m 0x52
            [e] .ok [e, (s.link m).flags])

/-- SCAN_RESET from the plan claim holder (R186, R124, R61): every live pass without a pending outcome fails SCAN_RESET,
ended with its pass-end record or draining with that outcome pending, and one with a pending outcome keeps it; no
SHOT, SWEEP or INTERNAL test is left, a port in FAULT is OFF, the counts of every port are 0; the plan, the angle,
the permit and the claims stand, and every link keeps the records it had. -/
def Obligations.ScanResetEndsPassesTestsAndFaults : Prop :=
  ∀ (m : Master) (s : State), s.listens m → s.holdsPlan m = true → s.passesSound → s.testsInTest →
    ∃ t, exec (.scanReset m) s = .next t
      ∧ (∀ x ∈ t.livePasses, x.pendingOutcome ≠ none)
      ∧ (∀ p x, x ∈ (s.port p).queue → x.pendingOutcome = none → s.failedWith t .scanReset p x)
      ∧ (∀ p x o, x ∈ (s.port p).queue → x.pendingOutcome = some o →
          (t.findPass p x.tag).map (fun y => (y.state, y.pendingOutcome)) = some (x.state, some o))
      ∧ (∀ p, (t.port p).consecutive = 0 ∧ (t.port p).linkErrors = 0 ∧ (t.port p).patternErrors = 0
          ∧ (t.port p).testSkips = 0)
      ∧ (∀ p, (s.port p).state = .fault → (t.port p).state = .off ∧ (t.port p).fault = .none)
      ∧ (∀ p, (s.port p).state ≠ .fault → (s.port p).state ≠ .test → (t.port p).state = (s.port p).state)
      ∧ (∀ p y, (s.port p).test = some y → (∀ pt, y.mode = .pattern pt → pt.loop = .internal) →
          (t.port p).state = .ready ∧ (t.port p).test = none)
      ∧ (∀ p y pt, (s.port p).test = some y → y.mode = .pattern pt → pt.loop = .echo →
          (t.port p).state = .test
            ∧ (t.port p).test = some { y with mode := .pattern { pt with stopping := true, waiting := [] } })
      ∧ t.plan = s.plan ∧ t.permit = s.permit ∧ t.claims = s.claims
      ∧ t.angle = { s.angle with stall := .stopped }
      ∧ (∀ k, ∃ more, (t.link k).records = (s.link k).records ++ more)
      ∧ (∀ k, k ≠ m → (t.link k).repeats = (s.link k).repeats)
      ∧ (t.link m).reply = replyFrame .ok []

/-- LINK_RESET of a master, in any state (R187): its passes leave the queues, its SHOT and SWEEP tests end (R167; that
TEST_END can reach another master is the model's choice, log 43), and an exchange of its shot is marked for its discard
(R62, R63); its records, counts, enables and prefix are cleared; its claims go free or to the claimant, or back to the
holder (R154); it leaves the hold set (R146). -/
def Obligations.LinkResetClearsTheMaster : Prop :=
  ∀ (m : Master) (s : State), s.listens m → s.claimsSound → s.permitDecided →
    ∃ t, exec (.linkReset m) s = .next t
      ∧ (∀ p, (t.port p).queue.map Pass.tag
          = ((s.port p).queue.filter fun x => x.owner != m).map Pass.tag)
      ∧ (∀ p x, x ∈ (t.port p).queue → x.owner ≠ m)
      ∧ (∀ p ex, (s.port p).exchange = some ex →
          (t.port p).exchange
            = some { ex with shot := { ex.shot with orphan := ex.shot.orphan || decide (ex.shot.owner = m) } })
      ∧ (∀ p y, (t.port p).test = some y → y.mode.fires = true → y.recipient ≠ m)
      ∧ (let l := t.link m
         l.records = [] ∧ l.reserved = 0 ∧ l.enables = 0 ∧ l.attention = false ∧ l.abandoned = 0 ∧ l.repeats = none
          ∧ (∀ k, k ≠ 3 → l.flags.getLsbD k = false) ∧ l.reply = replyFrame .ok [])
      ∧ (∀ c, t.claim c = match s.claim c with
          | .free => .free
          | .held h => if h = m then .free else .held h
          | .handover h n left => if h = m then .held n else if n = m then .held h else .handover h n left)
      ∧ t.permit.hold = s.permit.hold &&& ~~~(1#3 <<< m.val) ∧ t.permitDecided
      ∧ t.plan = s.plan
end

