-- ==== Sys2Proof/Laws/State.lean ====
section
/-! SUPPORT. What each update of the state changes and what it leaves: reading back a port, a link or a claim,
one lemma per field and update, all for the simplifier. -/

namespace Sys2Proof.Machine

/-- Reading a cell by its number. -/
theorem get_getElem {α : Type} {n : Nat} (v : Vector α n) (i : Fin n) : v.get i = v[i.val] := rfl

/-! ### Reading back the cell that was written -/

@[simp] theorem State.port_setPort_self (s : State) (p : PortId) (x : Port) : (s.setPort p x).port p = x := by
  simp [State.port, State.setPort, get_getElem]

@[simp] theorem State.port_setPort_ne (s : State) {p r : PortId} (x : Port) (h : r ≠ p) :
    (s.setPort p x).port r = s.port r := by
  have : p.val ≠ r.val := fun e => h (Fin.ext e.symm)
  simp [State.port, State.setPort, get_getElem, this]

@[simp] theorem State.link_setLink_self (s : State) (m : Master) (x : Link) : (s.setLink m x).link m = x := by
  simp [State.link, State.setLink, get_getElem]

@[simp] theorem State.link_setLink_ne (s : State) {m n : Master} (x : Link) (h : n ≠ m) :
    (s.setLink m x).link n = s.link n := by
  have : m.val ≠ n.val := fun e => h (Fin.ext e.symm)
  simp [State.link, State.setLink, get_getElem, this]

@[simp] theorem State.claim_setClaim_self (s : State) (c : ClaimId) (x : Claim) : (s.setClaim c x).claim c = x := by
  simp [State.claim, State.setClaim, get_getElem]

@[simp] theorem State.claim_setClaim_ne (s : State) {c d : ClaimId} (x : Claim) (h : d ≠ c) :
    (s.setClaim c x).claim d = s.claim d := by
  have : c.val ≠ d.val := fun e => h (Fin.ext e.symm)
  simp [State.claim, State.setClaim, get_getElem, this]

theorem State.port_modPort (s : State) (p r : PortId) (f : Port → Port) :
    (s.modPort p f).port r = if r = p then f (s.port p) else s.port r := by
  unfold State.modPort; split
  · next h => subst h; simp
  · next h => simp [h]

@[simp] theorem State.port_modPort_self (s : State) (p : PortId) (f : Port → Port) :
    (s.modPort p f).port p = f (s.port p) := by simp [State.modPort]

@[simp] theorem State.port_modPort_ne (s : State) {p r : PortId} (f : Port → Port) (h : r ≠ p) :
    (s.modPort p f).port r = s.port r := by simp [State.modPort, h]

theorem State.link_modLink (s : State) (m n : Master) (f : Link → Link) :
    (s.modLink m f).link n = if n = m then f (s.link m) else s.link n := by
  unfold State.modLink; split
  · next h => subst h; simp
  · next h => simp [h]

@[simp] theorem State.link_modLink_self (s : State) (m : Master) (f : Link → Link) :
    (s.modLink m f).link m = f (s.link m) := by simp [State.modLink]

@[simp] theorem State.link_modLink_ne (s : State) {m n : Master} (f : Link → Link) (h : n ≠ m) :
    (s.modLink m f).link n = s.link n := by simp [State.modLink, h]

/-! ### Writing a cell twice, and writing back what stands -/

@[simp] theorem State.setLink_setLink (s : State) (m : Master) (x y : Link) :
    (s.setLink m x).setLink m y = s.setLink m y := by simp [State.setLink]

@[simp] theorem State.modLink_modLink (s : State) (m : Master) (f g : Link → Link) :
    (s.modLink m f).modLink m g = s.modLink m fun l => g (f l) := by simp [State.modLink]

@[simp] theorem State.setPort_setPort (s : State) (p : PortId) (x y : Port) :
    (s.setPort p x).setPort p y = s.setPort p y := by simp [State.setPort]

@[simp] theorem State.modPort_modPort (s : State) (p : PortId) (f g : Port → Port) :
    (s.modPort p f).modPort p g = s.modPort p fun q => g (f q) := by simp [State.modPort]

@[simp] theorem State.setPort_port (s : State) (p : PortId) : s.setPort p (s.port p) = s := by
  simp [State.setPort, State.port, get_getElem]

@[simp] theorem State.setLink_link (s : State) (m : Master) : s.setLink m (s.link m) = s := by
  simp [State.setLink, State.link, get_getElem]

@[simp] theorem State.setClaim_claim (s : State) (c : ClaimId) : s.setClaim c (s.claim c) = s := by
  simp [State.setClaim, State.claim, get_getElem]

/-! ### What an update leaves -/

section Port
variable (s : State) (p : PortId) (x : Port) (f : Port → Port) (m : Master) (c : ClaimId)
@[simp] theorem State.angle_setPort : (s.setPort p x).angle = s.angle := rfl
@[simp] theorem State.plan_setPort : (s.setPort p x).plan = s.plan := rfl
@[simp] theorem State.permit_setPort : (s.setPort p x).permit = s.permit := rfl
@[simp] theorem State.claims_setPort : (s.setPort p x).claims = s.claims := rfl
@[simp] theorem State.links_setPort : (s.setPort p x).links = s.links := rfl
@[simp] theorem State.choices_setPort : (s.setPort p x).choices = s.choices := rfl
@[simp] theorem State.pending_setPort : (s.setPort p x).pending = s.pending := rfl
@[simp] theorem State.link_setPort : (s.setPort p x).link m = s.link m := rfl
@[simp] theorem State.claim_setPort : (s.setPort p x).claim c = s.claim c := rfl
@[simp] theorem State.angle_modPort : (s.modPort p f).angle = s.angle := rfl
@[simp] theorem State.plan_modPort : (s.modPort p f).plan = s.plan := rfl
@[simp] theorem State.permit_modPort : (s.modPort p f).permit = s.permit := rfl
@[simp] theorem State.claims_modPort : (s.modPort p f).claims = s.claims := rfl
@[simp] theorem State.links_modPort : (s.modPort p f).links = s.links := rfl
@[simp] theorem State.choices_modPort : (s.modPort p f).choices = s.choices := rfl
@[simp] theorem State.pending_modPort : (s.modPort p f).pending = s.pending := rfl
@[simp] theorem State.link_modPort : (s.modPort p f).link m = s.link m := rfl
@[simp] theorem State.claim_modPort : (s.modPort p f).claim c = s.claim c := rfl
end Port

section Link
variable (s : State) (m : Master) (x : Link) (f : Link → Link) (p : PortId) (c : ClaimId)
@[simp] theorem State.angle_setLink : (s.setLink m x).angle = s.angle := rfl
@[simp] theorem State.plan_setLink : (s.setLink m x).plan = s.plan := rfl
@[simp] theorem State.ports_setLink : (s.setLink m x).ports = s.ports := rfl
@[simp] theorem State.permit_setLink : (s.setLink m x).permit = s.permit := rfl
@[simp] theorem State.claims_setLink : (s.setLink m x).claims = s.claims := rfl
@[simp] theorem State.choices_setLink : (s.setLink m x).choices = s.choices := rfl
@[simp] theorem State.pending_setLink : (s.setLink m x).pending = s.pending := rfl
@[simp] theorem State.port_setLink : (s.setLink m x).port p = s.port p := rfl
@[simp] theorem State.claim_setLink : (s.setLink m x).claim c = s.claim c := rfl
@[simp] theorem State.angle_modLink : (s.modLink m f).angle = s.angle := rfl
@[simp] theorem State.plan_modLink : (s.modLink m f).plan = s.plan := rfl
@[simp] theorem State.ports_modLink : (s.modLink m f).ports = s.ports := rfl
@[simp] theorem State.permit_modLink : (s.modLink m f).permit = s.permit := rfl
@[simp] theorem State.claims_modLink : (s.modLink m f).claims = s.claims := rfl
@[simp] theorem State.choices_modLink : (s.modLink m f).choices = s.choices := rfl
@[simp] theorem State.pending_modLink : (s.modLink m f).pending = s.pending := rfl
@[simp] theorem State.port_modLink : (s.modLink m f).port p = s.port p := rfl
@[simp] theorem State.claim_modLink : (s.modLink m f).claim c = s.claim c := rfl
end Link

section Claim
variable (s : State) (c : ClaimId) (x : Claim) (p : PortId) (m : Master)
@[simp] theorem State.angle_setClaim : (s.setClaim c x).angle = s.angle := rfl
@[simp] theorem State.plan_setClaim : (s.setClaim c x).plan = s.plan := rfl
@[simp] theorem State.ports_setClaim : (s.setClaim c x).ports = s.ports := rfl
@[simp] theorem State.permit_setClaim : (s.setClaim c x).permit = s.permit := rfl
@[simp] theorem State.links_setClaim : (s.setClaim c x).links = s.links := rfl
@[simp] theorem State.choices_setClaim : (s.setClaim c x).choices = s.choices := rfl
@[simp] theorem State.pending_setClaim : (s.setClaim c x).pending = s.pending := rfl
@[simp] theorem State.port_setClaim : (s.setClaim c x).port p = s.port p := rfl
@[simp] theorem State.link_setClaim : (s.setClaim c x).link m = s.link m := rfl
end Claim

section Units
variable (s : State) (fa : AngleUnit → AngleUnit) (fp : PlanStore → PlanStore) (fu : PermitUnit → PermitUnit)
  (p : PortId) (m : Master) (c : ClaimId)
@[simp] theorem State.angle_modAngle : (s.modAngle fa).angle = fa s.angle := rfl
@[simp] theorem State.plan_modAngle : (s.modAngle fa).plan = s.plan := rfl
@[simp] theorem State.permit_modAngle : (s.modAngle fa).permit = s.permit := rfl
@[simp] theorem State.ports_modAngle : (s.modAngle fa).ports = s.ports := rfl
@[simp] theorem State.links_modAngle : (s.modAngle fa).links = s.links := rfl
@[simp] theorem State.claims_modAngle : (s.modAngle fa).claims = s.claims := rfl
@[simp] theorem State.choices_modAngle : (s.modAngle fa).choices = s.choices := rfl
@[simp] theorem State.pending_modAngle : (s.modAngle fa).pending = s.pending := rfl
@[simp] theorem State.port_modAngle : (s.modAngle fa).port p = s.port p := rfl
@[simp] theorem State.link_modAngle : (s.modAngle fa).link m = s.link m := rfl
@[simp] theorem State.claim_modAngle : (s.modAngle fa).claim c = s.claim c := rfl
@[simp] theorem State.angle_modPlan : (s.modPlan fp).angle = s.angle := rfl
@[simp] theorem State.plan_modPlan : (s.modPlan fp).plan = fp s.plan := rfl
@[simp] theorem State.permit_modPlan : (s.modPlan fp).permit = s.permit := rfl
@[simp] theorem State.ports_modPlan : (s.modPlan fp).ports = s.ports := rfl
@[simp] theorem State.links_modPlan : (s.modPlan fp).links = s.links := rfl
@[simp] theorem State.claims_modPlan : (s.modPlan fp).claims = s.claims := rfl
@[simp] theorem State.choices_modPlan : (s.modPlan fp).choices = s.choices := rfl
@[simp] theorem State.pending_modPlan : (s.modPlan fp).pending = s.pending := rfl
@[simp] theorem State.port_modPlan : (s.modPlan fp).port p = s.port p := rfl
@[simp] theorem State.link_modPlan : (s.modPlan fp).link m = s.link m := rfl
@[simp] theorem State.claim_modPlan : (s.modPlan fp).claim c = s.claim c := rfl
@[simp] theorem State.angle_modPermit : (s.modPermit fu).angle = s.angle := rfl
@[simp] theorem State.plan_modPermit : (s.modPermit fu).plan = s.plan := rfl
@[simp] theorem State.permit_modPermit : (s.modPermit fu).permit = fu s.permit := rfl
@[simp] theorem State.ports_modPermit : (s.modPermit fu).ports = s.ports := rfl
@[simp] theorem State.links_modPermit : (s.modPermit fu).links = s.links := rfl
@[simp] theorem State.claims_modPermit : (s.modPermit fu).claims = s.claims := rfl
@[simp] theorem State.choices_modPermit : (s.modPermit fu).choices = s.choices := rfl
@[simp] theorem State.pending_modPermit : (s.modPermit fu).pending = s.pending := rfl
@[simp] theorem State.port_modPermit : (s.modPermit fu).port p = s.port p := rfl
@[simp] theorem State.link_modPermit : (s.modPermit fu).link m = s.link m := rfl
@[simp] theorem State.claim_modPermit : (s.modPermit fu).claim c = s.claim c := rfl
end Units

/-! ### Two states that agree everywhere -/

/-- States are equal when their fields are. -/
theorem State.eq_of_fields {s t : State} (ha : s.angle = t.angle) (hp : s.plan = t.plan)
    (hq : ∀ p, s.port p = t.port p) (hu : s.permit = t.permit) (hc : ∀ c, s.claim c = t.claim c)
    (hl : ∀ m, s.link m = t.link m) (hn : s.choices = t.choices) (hw : s.pending = t.pending) : s = t := by
  obtain ⟨_, _, ports, _, claims, links, _, _⟩ := s
  obtain ⟨_, _, ports', _, claims', links', _, _⟩ := t
  simp only [State.port, State.claim, State.link, get_getElem] at *
  subst ha hp hu hn hw
  have e1 : ports = ports' := Vector.ext fun i hi => hq ⟨i, hi⟩
  have e2 : claims = claims' := Vector.ext fun i hi => hc ⟨i, hi⟩
  have e3 : links = links' := Vector.ext fun i hi => hl ⟨i, hi⟩
  subst e1 e2 e3
  rfl

end Sys2Proof.Machine
end

