-- ==== Sys2Proof/Laws/Ops.lean ====
section
/-! SUPPORT. One lemma for each shared operation of the links, the notices, the result queues, the stall timer
and the four port units, saying all that it does. -/

namespace Sys2Proof.Machine

/-! ### Notices (R181, R184) -/

theorem link_raise (n : Notice) (m k : Master) (s : State) :
    (raise n m s).link k = if k = m then (s.link m).raise n else s.link k := by
  simp [raise, State.link_modLink]

theorem link_raiseAll (n : Notice) (s : State) (k : Master) : (raiseAll n s).link k = (s.link k).raise n := by
  have h : ∀ k : Master, k = 0 ∨ k = 1 ∨ k = 2 := by decide
  rcases h k with h | h | h <;> subst h <;> simp [raiseAll, allMasters, link_raise]

section Raise
variable (n : Notice) (m : Master) (s : State) (p : PortId) (c : ClaimId)
@[simp] theorem angle_raise : (raise n m s).angle = s.angle := rfl
@[simp] theorem plan_raise : (raise n m s).plan = s.plan := rfl
@[simp] theorem ports_raise : (raise n m s).ports = s.ports := rfl
@[simp] theorem permit_raise : (raise n m s).permit = s.permit := rfl
@[simp] theorem claims_raise : (raise n m s).claims = s.claims := rfl
@[simp] theorem choices_raise : (raise n m s).choices = s.choices := rfl
@[simp] theorem pending_raise : (raise n m s).pending = s.pending := rfl
@[simp] theorem port_raise : (raise n m s).port p = s.port p := rfl
@[simp] theorem claim_raise : (raise n m s).claim c = s.claim c := rfl
@[simp] theorem angle_raiseAll : (raiseAll n s).angle = s.angle := rfl
@[simp] theorem plan_raiseAll : (raiseAll n s).plan = s.plan := rfl
@[simp] theorem ports_raiseAll : (raiseAll n s).ports = s.ports := rfl
@[simp] theorem permit_raiseAll : (raiseAll n s).permit = s.permit := rfl
@[simp] theorem claims_raiseAll : (raiseAll n s).claims = s.claims := rfl
@[simp] theorem choices_raiseAll : (raiseAll n s).choices = s.choices := rfl
@[simp] theorem pending_raiseAll : (raiseAll n s).pending = s.pending := rfl
@[simp] theorem port_raiseAll : (raiseAll n s).port p = s.port p := rfl
@[simp] theorem claim_raiseAll : (raiseAll n s).claim c = s.claim c := rfl
end Raise

/-- A raise leaves a link's line driven by its flags and enables (R184). -/
theorem Link.raise_lineDriven (l : Link) (n : Notice) : (l.raise n).lineDriven := rfl

/-- Raising on the controller raises on at most one master and touches nothing else (R157). -/
theorem raiseController_cases (n : Notice) (p : PortId) (s : State) :
    (s.controller p = none ∧ raiseController n p s = s)
      ∨ ∃ m, s.controller p = some m ∧ raiseController n p s = raise n m s := by
  unfold raiseController
  cases h : s.controller p <;> simp

/-! ### Transactions (R175, R176, R178) -/

theorem transact_listens {m : Master} {s : State} (frame : List Byte) (answer : State → Answer)
    (h : s.listens m) :
    transact m frame answer s
      = (answer s).state.modLink m (·.respond frame (replyFrame (answer s).status (answer s).data)) := by
  unfold State.listens at h
  simp [transact, h]

/-- A request taken on a listening link: the prefix is consumed, the block acts, and the reply is formed. -/
theorem request_listens {m : Master} {s : State} (code : Byte) (params : List Byte) (act : State → Answer)
    (h : s.listens m) :
    request m code params act s
      = (act (consumeRepeats m s)).state.modLink m
          (·.respond (requestFrame code params)
            (replyFrame (act (consumeRepeats m s)).status (act (consumeRepeats m s)).data)) := by
  simp [request, transact_listens _ _ h]

/-- A request whose block changes nothing and whose answer does not depend on the prefix. -/
theorem request_unchanged {m : Master} {s : State} {code : Byte} {params : List Byte} {act : State → Answer}
    {status : Status} {data : List Byte} (h : s.listens m)
    (ha : act (consumeRepeats m s) = ⟨status, data, consumeRepeats m s⟩) :
    request m code params act s = s.answered m code params status data := by
  rw [request_listens _ _ _ h, ha]
  simp [consumeRepeats, State.answered, Link.answered, Link.respond]

/-- A frame on a link whose request has already been taken only clocks bytes (R175). -/
theorem transact_after {m : Master} {s : State} (frame : List Byte) (answer : State → Answer)
    (h : (s.link m).phase = .turnaround ∨ (s.link m).phase = .reply ∨ (s.link m).phase = .done) :
    transact m frame answer s = s.modLink m (Link.clockBytes frame.length) := by
  rcases h with h | h | h <;> simp [transact, h]

/-- With the select deasserted nothing is taken. -/
theorem transact_idle {m : Master} {s : State} (frame : List Byte) (answer : State → Answer)
    (h : (s.link m).phase = .idle) : transact m frame answer s = s := by
  simp [transact, h]

/-- A frame that R176 refuses: the status with M 0, and nothing else changes. -/
theorem requestNotTaken_listens {m : Master} {s : State} (frame : List Byte) (dflt status : Status)
    (h : s.listens m) (hf : frameFault frame = some status) :
    requestNotTaken m frame dflt s = s.modLink m (·.respond frame (replyFrame status [])) := by
  simp [requestNotTaken, transact_listens _ _ h, refuse, hf]

/-! ### The bytes clocked after a request (R175) -/

theorem Link.clockBytes_add (j k : Nat) (l : Link) :
    Link.clockBytes (j + k) l = Link.clockBytes k (Link.clockBytes j l) := by
  induction j generalizing l with
  | zero => simp [Link.clockBytes]
  | succ n ih =>
    rw [show n + 1 + k = (n + k) + 1 by omega]
    exact ih _

/-- Two bytes after the request the reply is at its first byte. -/
theorem Link.clockBytes_turnaround (l : Link) (h : l.phase = .turnaround) (h2 : l.turnaround = 2) :
    Link.clockBytes 2 l = { l with phase := .reply, turnaround := 0 } := by
  simp [Link.clockBytes, Link.clockByte, h, h2]

/-- In REPLY the bytes go out in order. -/
theorem Link.clockBytes_reply (j : Nat) (l : Link) (h : l.phase = .reply) (hj : j < l.reply.length) :
    Link.clockBytes j l = { l with reply := l.reply.drop j } := by
  induction j generalizing l with
  | zero => simp [Link.clockBytes]
  | succ n ih =>
    have first : l.clockByte = { l with reply := l.reply.drop 1 } := by
      unfold Link.clockByte
      simp only [h]
      match hr : l.reply with
      | [] => simp [hr] at hj
      | [a] => simp [hr] at hj
      | a :: b :: r => simp
    simp only [Link.clockBytes, first]
    rw [ih { l with reply := l.reply.drop 1 } h (by simp; omega)]
    simp

/-- The byte after the last one of the reply ends it. -/
theorem Link.clockByte_last (l : Link) (h : l.phase = .reply) (hl : l.reply.length ≤ 1) :
    l.clockByte = { l with phase := .done, reply := [] } := by
  unfold Link.clockByte
  simp only [h]
  match hr : l.reply with
  | [] => rfl
  | [a] => rfl
  | a :: b :: r => simp [hr] at hl

/-- In DONE nothing changes. -/
theorem Link.clockBytes_done (j : Nat) (l : Link) (h : l.phase = .done) : Link.clockBytes j l = l := by
  induction j with
  | zero => rfl
  | succ n ih =>
    have : l.clockByte = l := by simp [Link.clockByte, h]
    simp only [Link.clockBytes, this]
    exact ih

section Consume
variable (m : Master) (s : State) (p : PortId) (c : ClaimId)
@[simp] theorem angle_consume : (consumeRepeats m s).angle = s.angle := rfl
@[simp] theorem plan_consume : (consumeRepeats m s).plan = s.plan := rfl
@[simp] theorem ports_consume : (consumeRepeats m s).ports = s.ports := rfl
@[simp] theorem permit_consume : (consumeRepeats m s).permit = s.permit := rfl
@[simp] theorem claims_consume : (consumeRepeats m s).claims = s.claims := rfl
@[simp] theorem choices_consume : (consumeRepeats m s).choices = s.choices := rfl
@[simp] theorem pending_consume : (consumeRepeats m s).pending = s.pending := rfl
@[simp] theorem port_consume : (consumeRepeats m s).port p = s.port p := rfl
@[simp] theorem claim_consume : (consumeRepeats m s).claim c = s.claim c := rfl
@[simp] theorem holdsPlan_consume (k : Master) : (consumeRepeats m s).holdsPlan k = s.holdsPlan k := rfl
@[simp] theorem controller_consume : (consumeRepeats m s).controller p = s.controller p := rfl
end Consume

/-! ### Result queues (R73, R77, R179) -/

/-- What the writing of a shot's record does, whole (R179). -/
theorem writeRecord_shot (m : Master) (r : ShotRecord) (s : State) :
    writeRecord m (.shot r) s = s.modLink m (·.written (.shot r) 1) := by
  simp [writeRecord, raise, Link.raise, Link.redrive, Link.written, Notice.mask]

/-- What the writing of a pass-end record does, whole (R179). -/
theorem writeRecord_passEnd (m : Master) (r : PassEndRecord) (s : State) :
    writeRecord m (.passEnd r) s = s.modLink m (·.written (.passEnd r) 3) := by
  simp [writeRecord, raise, Link.raise, Link.redrive, Link.written, Notice.mask]
  congr 1
  funext l
  simp [BitVec.or_assoc]

/-- A record joins the tail of its owner's queue and takes a reserved entry (R179). -/
theorem link_writeRecord_self (m : Master) (r : Record) (s : State) :
    ((writeRecord m r s).link m).records = (s.link m).records ++ [r]
      ∧ ((writeRecord m r s).link m).reserved = (s.link m).reserved - 1 := by
  cases r <;> simp [writeRecord, raise, Link.raise, Link.redrive]

theorem link_writeRecord_ne {m k : Master} (r : Record) (s : State) (h : k ≠ m) :
    (writeRecord m r s).link k = s.link k := by
  cases r <;> simp [writeRecord, raise, h]

/-- A record written into a reserved entry keeps held plus reserved (R77). -/
theorem writeRecord_sum (m : Master) (r : Record) (s : State) (h : 1 ≤ (s.link m).reserved) :
    ((writeRecord m r s).link m).held + ((writeRecord m r s).link m).reserved
      = (s.link m).held + (s.link m).reserved := by
  have := link_writeRecord_self m r s
  simp only [Link.held, this.1, this.2, List.length_append, List.length_singleton]
  omega

section Write
variable (m : Master) (r : Record) (s : State) (p : PortId) (c : ClaimId)
@[simp] theorem angle_writeRecord : (writeRecord m r s).angle = s.angle := by cases r <;> rfl
@[simp] theorem plan_writeRecord : (writeRecord m r s).plan = s.plan := by cases r <;> rfl
@[simp] theorem ports_writeRecord : (writeRecord m r s).ports = s.ports := by cases r <;> rfl
@[simp] theorem permit_writeRecord : (writeRecord m r s).permit = s.permit := by cases r <;> rfl
@[simp] theorem claims_writeRecord : (writeRecord m r s).claims = s.claims := by cases r <;> rfl
@[simp] theorem choices_writeRecord : (writeRecord m r s).choices = s.choices := by cases r <;> rfl
@[simp] theorem pending_writeRecord : (writeRecord m r s).pending = s.pending := by cases r <;> rfl
@[simp] theorem port_writeRecord : (writeRecord m r s).port p = s.port p := by cases r <;> rfl
@[simp] theorem claim_writeRecord : (writeRecord m r s).claim c = s.claim c := by cases r <;> rfl
end Write

/-! ### The stall timer (R18) -/

/-- `syncStall` changes the stall timer only. -/
theorem syncStall_eq (s : State) : ∃ t, syncStall s = s.modAngle fun a => { a with stall := t } := by
  unfold syncStall
  split
  · split
    · exact ⟨s.angle.stall, rfl⟩
    · exact ⟨startMillis s.angle.cfg.stallTime, by simp only [State.modAngle]⟩
  · exact ⟨.stopped, rfl⟩

/-- A timer has run out exactly when it runs with nothing left. -/
theorem Timer.isOut_iff {t : Timer} : t.isOut = true ↔ t = .running 0 := by
  unfold Timer.isOut
  split <;> simp_all

/-- A timer started runs. -/
@[simp] theorem isRunning_startMillis (ms : Nat) : (startMillis ms).isRunning = true := rfl

/-- After `syncStall` the timer runs exactly while a pass is PLANNED or OPEN (R18). -/
theorem syncStall_runs (s : State) :
    (syncStall s).angle.stall.isRunning = s.livePasses.any Pass.onTable := by
  unfold syncStall
  cases h : s.livePasses.any Pass.onTable
  · simp [Timer.isRunning]
  · cases h' : s.angle.stall.isRunning
    · simp
    · simp [h']

section Sync
variable (s : State) (p : PortId) (c : ClaimId) (m : Master)
@[simp] theorem plan_syncStall : (syncStall s).plan = s.plan := by obtain ⟨t, h⟩ := syncStall_eq s; rw [h]; rfl
@[simp] theorem ports_syncStall : (syncStall s).ports = s.ports := by obtain ⟨t, h⟩ := syncStall_eq s; rw [h]; rfl
@[simp] theorem permit_syncStall : (syncStall s).permit = s.permit := by obtain ⟨t, h⟩ := syncStall_eq s; rw [h]; rfl
@[simp] theorem claims_syncStall : (syncStall s).claims = s.claims := by obtain ⟨t, h⟩ := syncStall_eq s; rw [h]; rfl
@[simp] theorem links_syncStall : (syncStall s).links = s.links := by obtain ⟨t, h⟩ := syncStall_eq s; rw [h]; rfl
@[simp] theorem choices_syncStall : (syncStall s).choices = s.choices := by
  obtain ⟨t, h⟩ := syncStall_eq s; rw [h]; rfl
@[simp] theorem pending_syncStall : (syncStall s).pending = s.pending := by
  obtain ⟨t, h⟩ := syncStall_eq s; rw [h]; rfl
@[simp] theorem port_syncStall : (syncStall s).port p = s.port p := by obtain ⟨t, h⟩ := syncStall_eq s; rw [h]; rfl
@[simp] theorem claim_syncStall : (syncStall s).claim c = s.claim c := by
  obtain ⟨t, h⟩ := syncStall_eq s; rw [h]; rfl
@[simp] theorem link_syncStall : (syncStall s).link m = s.link m := by obtain ⟨t, h⟩ := syncStall_eq s; rw [h]; rfl
end Sync

/-! ### The four port units -/

/-- A property that an event keeps at each port is kept when the four take it, in whatever order. -/
theorem takeInOrder_keeps {P : State → Prop} {f : PortId → State → State} (hf : ∀ p s, P s → P (f p s))
    (order : List PortId) {s : State} (h : P s) : P (takeInOrder f order s) := by
  induction order generalizing s with
  | nil => exact h
  | cons p rest ih => exact ih (hf p s h)

theorem atPorts_keeps {P : State → Prop} {f : PortId → State → State} (hf : ∀ p s, P s → P (f p s))
    (hc : ∀ s n, P s → P { s with choices := n }) {s : State} (h : P s) : P (atPorts f s) := by
  have h0 := takeInOrder_keeps hf (allPorts.filter fun p => !(s.port p).busy) h
  unfold atPorts
  dsimp only
  split
  · exact h0
  · split
    · exact takeInOrder_keeps hf _ h0
    · exact hc _ _ (takeInOrder_keeps hf _ h0)

/-- When no port is busy the event is taken from port 0 to port 3. -/
theorem atPorts_quiet (f : PortId → State → State) (s : State) (h : ∀ p, (s.port p).busy = false) :
    atPorts f s = eachPort f s := by
  have hb : (allPorts.filter fun p => (s.port p).busy) = [] := by simp [h]
  have hn : (allPorts.filter fun p => !(s.port p).busy) = allPorts := by simp [h]
  simp [atPorts, hb, hn, orders, takeInOrder, eachPort]

theorem eachPort_keeps {P : State → Prop} {f : PortId → State → State} (hf : ∀ p s, P s → P (f p s))
    {s : State} (h : P s) : P (eachPort f s) := takeInOrder_keeps hf allPorts h

end Sys2Proof.Machine
end

