-- ==== Sys2Proof/Laws/Frame.lean ====
section
/-! SUPPORT. What the operations of the Pass Manager, the head links, the Trigger Units, the planners and the
test modes leave: one lemma for each operation. An operation at a port leaves the other ports, the Angle Unit,
the Permit Unit, the claims and the transactions alone. -/

namespace Sys2Proof.Machine

/-- `t` differs from `s` in ports, in blade entries, in records, reserved counts, flags and lines, and in the
count of free choices, and in nothing else. -/
structure Inner (s t : State) : Prop where
  angle : t.angle = s.angle
  permit : t.permit = s.permit
  claims : t.claims = s.claims
  pending : t.pending = s.pending
  plan : ({ t.plan with blades := [] } : PlanStore) = { s.plan with blades := [] }
  wire : ∀ m, (t.link m).transaction = (s.link m).transaction

/-- `t` differs from `s` only as `Inner` allows, in no port but `p`, and by no free choice. -/
structure AtPort (p : PortId) (s t : State) : Prop extends Inner s t where
  choices : t.choices = s.choices
  others : ∀ r, r ≠ p → t.port r = s.port r

theorem Inner.refl (s : State) : Inner s s := ⟨rfl, rfl, rfl, rfl, rfl, fun _ => rfl⟩

theorem Inner.trans {s t u : State} (h : Inner s t) (k : Inner t u) : Inner s u :=
  ⟨k.angle.trans h.angle, k.permit.trans h.permit, k.claims.trans h.claims, k.pending.trans h.pending,
    k.plan.trans h.plan, fun m => (k.wire m).trans (h.wire m)⟩

theorem AtPort.refl (p : PortId) (s : State) : AtPort p s s := ⟨Inner.refl s, rfl, fun _ _ => rfl⟩

theorem AtPort.trans {p : PortId} {s t u : State} (h : AtPort p s t) (k : AtPort p t u) : AtPort p s u :=
  ⟨h.toInner.trans k.toInner, k.choices.trans h.choices, fun r hr => (k.others r hr).trans (h.others r hr)⟩

/-! ### The basic updates -/

theorem AtPort.modPort (p : PortId) (f : Port → Port) (s : State) : AtPort p s (s.modPort p f) :=
  ⟨⟨rfl, rfl, rfl, rfl, rfl, fun _ => rfl⟩, rfl, fun _ hr => by simp [hr]⟩

theorem AtPort.modLink (p : PortId) (m : Master) (f : Link → Link) (s : State)
    (hf : ∀ l, (f l).transaction = l.transaction) : AtPort p s (s.modLink m f) := by
  refine ⟨⟨rfl, rfl, rfl, rfl, rfl, fun k => ?_⟩, rfl, fun _ _ => rfl⟩
  rw [State.link_modLink]
  split
  · next h => subst h; exact hf _
  · rfl

theorem AtPort.modBlade (p : PortId) (n : Byte) (f : Blade → Blade) (s : State) :
    AtPort p s (modBlade n f s) := ⟨⟨rfl, rfl, rfl, rfl, rfl, fun _ => rfl⟩, rfl, fun _ _ => rfl⟩

theorem AtPort.raise (p : PortId) (n : Notice) (m : Master) (s : State) : AtPort p s (raise n m s) :=
  AtPort.modLink p m _ s fun _ => rfl

theorem AtPort.raiseController (p : PortId) (n : Notice) (s : State) : AtPort p s (raiseController n p s) := by
  rcases raiseController_cases n p s with ⟨_, h⟩ | ⟨m, _, h⟩ <;> rw [h]
  · exact AtPort.refl p s
  · exact AtPort.raise p n m s

theorem AtPort.reserve (p : PortId) (m : Master) (n : Nat) (s : State) : AtPort p s (reserve m n s) :=
  AtPort.modLink p m _ s fun _ => rfl

theorem AtPort.releaseEntries (p : PortId) (m : Master) (n : Nat) (s : State) :
    AtPort p s (releaseEntries m n s) := AtPort.modLink p m _ s fun _ => rfl

theorem AtPort.writeRecord (p : PortId) (m : Master) (r : Record) (s : State) :
    AtPort p s (writeRecord m r s) := by
  have h := (AtPort.modLink p m (fun l => { l with records := l.records ++ [r], reserved := l.reserved - 1 }) s
    fun _ => rfl).trans (AtPort.raise p .result m _)
  cases r with
  | shot _ => exact h
  | passEnd _ => exact h.trans (AtPort.raise p .passEnd m _)

theorem AtPort.modPass (p : PortId) (t : Tag) (f : Pass → Pass) (s : State) : AtPort p s (modPass p t f s) :=
  AtPort.modPort p _ s

theorem AtPort.modEntry (p : PortId) (t : Tag) (f : PlanEntry → PlanEntry) (s : State) :
    AtPort p s (modEntry p t f s) := AtPort.modPort p _ s

theorem AtPort.modTest (p : PortId) (f : Test → Test) (s : State) : AtPort p s (modTest p f s) :=
  AtPort.modPort p _ s

/-- A choice between two operations at a port. -/
theorem AtPort.ite (p : PortId) (c : Prop) [Decidable c] {s t u : State} (h : AtPort p s t) (k : AtPort p s u) :
    AtPort p s (if c then t else u) := by split <;> assumption

/-- Operations at a port taken one after another along a list. -/
theorem AtPort.foldl {α : Type} (p : PortId) (f : State → α → State) (hf : ∀ s x, AtPort p s (f s x))
    (xs : List α) (s : State) : AtPort p s (xs.foldl f s) := by
  induction xs generalizing s with
  | nil => exact AtPort.refl p s
  | cons x rest ih => exact (hf s x).trans (ih _)

/-! ### Passes (chapters 3, 4 and 7) -/

theorem AtPort.deliver (p : PortId) (sh : Shot) (e : Ending) (d : List Byte) (s : State) :
    AtPort p s (deliver p sh e d s) := by
  unfold Machine.deliver
  split
  · exact AtPort.refl p s
  · dsimp only
    split
    · exact AtPort.writeRecord p _ _ s
    · exact (AtPort.writeRecord p _ _ s).trans (AtPort.modPass p _ _ _)

theorem AtPort.dropSlot (p : PortId) (s : State) : AtPort p s (dropSlot p s) := by
  unfold Machine.dropSlot
  split
  · exact AtPort.refl p s
  · exact (AtPort.modPort p _ s).trans (AtPort.deliver p _ _ _ _)

theorem AtPort.dropPendingOf (p : PortId) (t : Tag) (s : State) : AtPort p s (dropPendingOf p t s) :=
  AtPort.ite p _ (AtPort.dropSlot p s) (AtPort.refl p s)

theorem AtPort.edgeUpdate (p : PortId) (x : Pass) (b : Blade) (k a : Nat) (o : Int) (s : State) :
    AtPort p s (edgeUpdate p x b k a o s) := (AtPort.modBlade p _ _ s).trans (AtPort.modPass p _ _ _)

theorem AtPort.consult (p : PortId) (x : Pass) (s : State) : AtPort p s (consult p x s) := by
  unfold Machine.consult
  repeat' split
  all_goals first
    | exact AtPort.refl p s
    | exact AtPort.edgeUpdate p _ _ _ _ _ s
    | exact AtPort.modPass p _ _ s

theorem AtPort.countCompleted (p : PortId) (n : Byte) (s : State) : AtPort p s (countCompleted n s) :=
  AtPort.modBlade p _ _ s

theorem AtPort.endPass (p : PortId) (t : Tag) (o : PassOutcome) (s : State) : AtPort p s (endPass p t o s) := by
  unfold Machine.endPass
  split
  · exact AtPort.refl p s
  · exact ((AtPort.writeRecord p _ _ s).trans
      (AtPort.ite p _ (AtPort.countCompleted p _ _) (AtPort.refl p _))).trans (AtPort.modPort p _ _)

theorem AtPort.revolutionEnd (p : PortId) (t : Tag) (s : State) : AtPort p s (revolutionEnd p t s) := by
  unfold Machine.revolutionEnd
  extract_lets s1
  have h1 : AtPort p s s1 := AtPort.modPass p _ _ s
  split
  · exact h1
  · next x _ =>
    extract_lets s2
    have h2 : AtPort p s s2 := h1.trans (AtPort.ite p _ (AtPort.consult p _ _) (AtPort.refl p _))
    split
    · exact h2
    · exact h2.trans (AtPort.ite p _ (AtPort.modPass p _ _ _) (AtPort.endPass p _ _ _))

theorem AtPort.settleDraining (p : PortId) (t : Tag) (s : State) : AtPort p s (settleDraining p t s) := by
  unfold Machine.settleDraining
  repeat' split
  · exact AtPort.refl p s
  · exact AtPort.endPass p _ _ s
  · exact AtPort.revolutionEnd p _ s
  · exact AtPort.refl p s

theorem AtPort.leavePlan (p : PortId) (t : Tag) (s : State) : AtPort p s (leavePlan p t s) := by
  unfold Machine.leavePlan
  split
  · exact (AtPort.releaseEntries p _ _ s).trans (AtPort.modPort p _ _)
  · exact AtPort.refl p s

theorem AtPort.closeRevolution (p : PortId) (t : Tag) (s : State) : AtPort p s (closeRevolution p t s) :=
  ((AtPort.leavePlan p t s).trans (AtPort.modPass p _ _ _)).trans (AtPort.settleDraining p _ _)

theorem AtPort.endOrDrain (p : PortId) (t : Tag) (o : PassOutcome) (s : State) :
    AtPort p s (endOrDrain p t o s) := AtPort.ite p _ (AtPort.modPass p _ _ s) (AtPort.endPass p _ _ s)

theorem AtPort.failPass (p : PortId) (t : Tag) (o : PassOutcome) (s : State) : AtPort p s (failPass p t o s) := by
  unfold Machine.failPass
  repeat' split
  · exact AtPort.refl p s
  · exact AtPort.dropPendingOf p _ s
  · exact AtPort.endPass p _ _ s
  · exact (AtPort.leavePlan p _ s).trans (AtPort.endPass p _ _ _)
  · exact ((AtPort.leavePlan p _ s).trans (AtPort.dropPendingOf p _ _)).trans (AtPort.endOrDrain p _ _ _)
  · exact (AtPort.dropPendingOf p _ s).trans (AtPort.endOrDrain p _ _ _)

theorem AtPort.failPort (r : Pass → Bool) (o : PassOutcome) (p : PortId) (s : State) :
    AtPort p s (failPort r o p s) := AtPort.foldl p _ (fun s t => AtPort.failPass p t o s) _ s

/-! ### Head links and tests (chapters 6 and 10) -/

theorem AtPort.startExchange (p : PortId) (sh : Shot) (s : State) : AtPort p s (startExchange p sh s) :=
  AtPort.modPort p _ s

theorem AtPort.handOff (p : PortId) (sh : Shot) (s : State) : AtPort p s (handOff p sh s) := by
  unfold Machine.handOff
  repeat' split
  · exact AtPort.startExchange p _ s
  · exact AtPort.modPort p _ s
  · exact AtPort.deliver p _ _ _ s

theorem AtPort.endTest (p : PortId) (a : PortState) (s : State) : AtPort p s (endTest p a s) :=
  ((AtPort.dropSlot p s).trans (AtPort.modPort p _ _)).trans (AtPort.raiseController p _ _)

theorem AtPort.endTestIf (w : TestMode → Bool) (p : PortId) (s : State) : AtPort p s (endTestIf w p s) := by
  unfold Machine.endTestIf
  split
  · exact AtPort.ite p _ (AtPort.endTest p _ s) (AtPort.refl p s)
  · exact AtPort.refl p s

theorem AtPort.cutExchange (p : PortId) (e : Ending) (s : State) : AtPort p s (cutExchange p e s) := by
  unfold Machine.cutExchange
  split
  · exact AtPort.refl p s
  · exact ((AtPort.modPort p _ s).trans (AtPort.deliver p _ _ _ _)).trans
      (AtPort.ite p _ (AtPort.settleDraining p _ _) (AtPort.refl p _))

theorem AtPort.enterFault (p : PortId) (r : FaultReason) (s : State) : AtPort p s (enterFault p r s) :=
  ((((AtPort.modPort p _ s).trans
    (AtPort.ite p _ ((AtPort.modPort p _ _).trans (AtPort.cutExchange p _ _)) (AtPort.refl p _))).trans
    (AtPort.ite p _ (AtPort.endTest p _ _) (AtPort.refl p _))).trans
    (AtPort.failPort _ _ p _)).trans (AtPort.raiseController p _ _)

theorem AtPort.goOn (p : PortId) (e : Ending) (s : State) : AtPort p s (goOn p e s) := by
  unfold Machine.goOn
  extract_lets s1 q
  have h1 : AtPort p s s1 := AtPort.modPort p _ s
  split
  · exact h1.trans (AtPort.enterFault p _ _)
  · split
    · exact (h1.trans (AtPort.modPort p _ _)).trans (AtPort.startExchange p _ _)
    · exact h1

theorem AtPort.endExchange (p : PortId) (e : Ending) (d : List Byte) (s : State) :
    AtPort p s (endExchange p e d s) := by
  unfold Machine.endExchange
  split
  · exact AtPort.refl p s
  · exact (((AtPort.modPort p _ s).trans (AtPort.deliver p _ _ _ _)).trans
      (AtPort.ite p _ (AtPort.settleDraining p _ _) (AtPort.refl p _))).trans (AtPort.goOn p _ _)

theorem AtPort.returnComplete (p : PortId) (ex : Exchange) (s : State) :
    AtPort p s (returnComplete p ex s) :=
  AtPort.ite p _ (AtPort.endExchange p _ _ s)
    (AtPort.ite p _ (AtPort.endExchange p _ _ s) (AtPort.endExchange p _ _ s))

theorem AtPort.receiveByte (p : PortId) (s : State) (b : Byte) : AtPort p s (receiveByte p s b) := by
  unfold Machine.receiveByte
  extract_lets q s0
  have h0 : AtPort p s s0 := AtPort.modPort p _ s
  repeat' split
  all_goals try exact AtPort.refl p s
  all_goals try exact h0
  all_goals try exact AtPort.modPort p _ s
  all_goals try exact h0.trans (AtPort.modPort p _ s0)
  all_goals
    exact (h0.trans (AtPort.modPort p _ s0)).trans
      (AtPort.ite p _ (AtPort.refl p _) (AtPort.returnComplete p _ _))

theorem AtPort.receiveUnframed (p : PortId) (s : State) : AtPort p s (receiveUnframed p s) := by
  unfold Machine.receiveUnframed
  extract_lets s0
  have h0 : AtPort p s s0 := AtPort.modPort p _ s
  split
  · exact h0.trans (AtPort.endExchange p _ _ _)
  · exact h0.trans (AtPort.modPort p _ _)

theorem AtPort.receive (p : PortId) (s : State) (r : Reception) : AtPort p s (receive p s r) := by
  unfold Machine.receive
  split
  · exact AtPort.refl p s
  · exact AtPort.receiveByte p s _
  · exact AtPort.receiveUnframed p s

theorem AtPort.receiveBytes (p : PortId) (bs : List Byte) (s : State) : AtPort p s (receiveBytes p bs s) :=
  AtPort.foldl p _ (fun s _ => AtPort.receive p s _) bs s

theorem AtPort.echoDone (p : PortId) (bs : List Bool) (s : State) : AtPort p s (echoDone p bs s) := by
  unfold Machine.echoDone
  repeat' split
  all_goals first
    | exact AtPort.refl p s
    | exact AtPort.modPort p _ s

theorem AtPort.stopTest (p : PortId) (s : State) : AtPort p s (stopTest p s) := by
  unfold Machine.stopTest
  repeat' split
  all_goals first
    | exact AtPort.refl p s
    | exact AtPort.modPort p _ s
    | exact AtPort.endTest p _ s

/-! ### Trigger Units and sweeps (chapter 5, 10.3) -/

theorem AtPort.fire (p : PortId) (t : Tag) (s : State) : AtPort p s (fire p t s) := by
  unfold Machine.fire
  split
  · exact ((((AtPort.modPort p _ s).trans (AtPort.modPass p _ _ _)).trans (AtPort.modEntry p _ _ _)).trans
      (AtPort.handOff p _ _)).trans (AtPort.ite p _ (AtPort.closeRevolution p _ _) (AtPort.refl p _))
  · exact AtPort.refl p s

theorem AtPort.countAtTrigger (d : Direction) (p : PortId) (s : State) : AtPort p s (countAtTrigger d p s) := by
  unfold Machine.countAtTrigger
  repeat' split
  all_goals first
    | exact AtPort.refl p s
    | exact AtPort.fire p _ s
    | exact (AtPort.modPass p _ _ s).trans (AtPort.fire p _ _)

theorem AtPort.skipTo (p : PortId) (t : Tag) (l : Nat) (s : State) : AtPort p s (skipTo p t l s) := by
  unfold Machine.skipTo
  split
  · exact AtPort.refl p s
  · exact ((AtPort.ite p _ (AtPort.modPass p _ _ s) (AtPort.refl p s)).trans (AtPort.modEntry p _ _ _)).trans
      (AtPort.ite p _ (AtPort.closeRevolution p _ _) (AtPort.refl p _))

theorem AtPort.slipAtTrigger (j : Bool) (p : PortId) (s : State) : AtPort p s (slipAtTrigger j p s) := by
  unfold Machine.slipAtTrigger
  extract_lets landing s1 s2
  have h1 : AtPort p s s1 := AtPort.modPort p _ s
  have h2 : AtPort p s s2 := by
    show AtPort p s (match (s1.port p).openEntry with
      | some e => Machine.skipTo p e.tag landing s1
      | none => s1)
    split
    · exact h1.trans (AtPort.skipTo p _ _ _)
    · exact h1
  split
  · split
    · exact h2
    · split
      · exact (h2.trans (AtPort.modPass p _ _ _)).trans (AtPort.skipTo p _ _ _)
      · exact h2
  · exact h1

theorem AtPort.reverseAtTrigger (p : PortId) (s : State) : AtPort p s (reverseAtTrigger p s) := by
  unfold Machine.reverseAtTrigger
  split
  · exact (AtPort.modPass p _ _ s).trans (AtPort.closeRevolution p _ _)
  · exact AtPort.refl p s

theorem AtPort.dueTestShot (p : PortId) (s : State) : AtPort p s (dueTestShot p s) := by
  unfold Machine.dueTestShot
  repeat' split
  all_goals first
    | exact AtPort.refl p s
    | exact AtPort.modPort p _ s
    | exact (((AtPort.reserve p _ _ s).trans (AtPort.modPort p _ _)).trans (AtPort.modTest p _ _)).trans
        (AtPort.handOff p _ _)

theorem AtPort.originAtSweep (d : Direction) (p : PortId) (s : State) : AtPort p s (originAtSweep d p s) := by
  unfold Machine.originAtSweep
  dsimp only
  repeat' split
  all_goals first
    | exact AtPort.refl p s
    | exact AtPort.modTest p _ s
    | exact AtPort.endTest p _ s

theorem AtPort.countAtSweep (d : Direction) (p : PortId) (s : State) : AtPort p s (countAtSweep d p s) := by
  unfold Machine.countAtSweep
  repeat' split
  all_goals first
    | exact AtPort.refl p s
    | exact (AtPort.dueTestShot p s).trans (AtPort.modTest p _ _)

theorem AtPort.jumpAtSweep (p : PortId) (s : State) : AtPort p s (jumpAtSweep p s) := by
  unfold Machine.jumpAtSweep
  repeat' split
  all_goals first
    | exact AtPort.refl p s
    | exact AtPort.modTest p _ s

theorem AtPort.reverseAtSweep (p : PortId) (s : State) : AtPort p s (reverseAtSweep p s) := by
  unfold Machine.reverseAtSweep
  repeat' split
  all_goals first
    | exact AtPort.refl p s
    | exact AtPort.endTest p _ s

theorem AtPort.directionChangeAt (p : PortId) (s : State) : AtPort p s (directionChangeAt p s) :=
  (AtPort.reverseAtTrigger p s).trans (AtPort.reverseAtSweep p _)

theorem AtPort.countAt (d : Direction) (p : PortId) (s : State) : AtPort p s (countAt d p s) :=
  (AtPort.countAtTrigger d p s).trans (AtPort.countAtSweep d p _)

theorem AtPort.slipAt (j : Bool) (p : PortId) (s : State) : AtPort p s (slipAt j p s) :=
  (AtPort.slipAtTrigger j p s).trans (AtPort.ite p _ (AtPort.jumpAtSweep p _) (AtPort.refl p _))

/-! ### Planners (chapter 4) -/

theorem AtPort.returnPass (p : PortId) (t : Tag) (s : State) : AtPort p s (returnPass p t s) :=
  AtPort.ite p _ ((AtPort.leavePlan p _ s).trans (AtPort.modPass p _ _ _)) (AtPort.refl p s)

theorem AtPort.returnUnopened (p : PortId) (s : State) : AtPort p s (returnUnopened p s) :=
  AtPort.foldl p _ (fun s t => AtPort.returnPass p t s) _ s

theorem AtPort.choosePass (p : PortId) (x : Pass) (e : PlanEntry) (s : State) :
    AtPort p s (choosePass p x e s) := by
  unfold Machine.choosePass
  extract_lets s1 s2
  exact (AtPort.trans (AtPort.reserve p _ _ s : AtPort p s s1) (AtPort.modPass p _ _ s1 : AtPort p s1 s2)).trans
    (AtPort.modPort p _ s2)

theorem AtPort.considerPass (d : Direction) (p : PortId) (t : Tag) (s : State) :
    AtPort p s (considerPass d p t s) := by
  unfold Machine.considerPass
  split
  · exact AtPort.refl p s
  · split
    · split
      · exact AtPort.refl p s
      · extract_lets c e
        exact AtPort.ite p _ (AtPort.failPass p _ _ s) (AtPort.ite p _ (AtPort.refl p s)
          (AtPort.ite p _ (AtPort.refl p s) (AtPort.ite p _ (AtPort.refl p s) (AtPort.choosePass p _ _ s))))
    · exact AtPort.refl p s

theorem AtPort.originAt (d : Direction) (p : PortId) (s : State) : AtPort p s (originAt d p s) := by
  refine AtPort.trans ?_ (AtPort.originAtSweep d p _)
  exact (AtPort.returnUnopened p s).trans
    (AtPort.ite p _ (AtPort.foldl p _ (fun s t => AtPort.considerPass d p t s) _ _) (AtPort.refl p _))

/-! ### The four port units together -/

theorem Inner.choose (s : State) (n : Nat) : Inner s { s with choices := n } :=
  ⟨rfl, rfl, rfl, rfl, rfl, fun _ => rfl⟩

theorem Inner.atPorts (f : PortId → State → State) (hf : ∀ p s, AtPort p s (f p s)) (s : State) :
    Inner s (atPorts f s) :=
  atPorts_keeps (P := Inner s) (fun p t h => h.trans (hf p t).toInner)
    (fun t n h => h.trans (Inner.choose t n)) (Inner.refl s)

theorem Inner.eachPort (f : PortId → State → State) (hf : ∀ p s, AtPort p s (f p s)) (s : State) :
    Inner s (eachPort f s) :=
  eachPort_keeps (P := Inner s) (fun p t h => h.trans (hf p t).toInner) (Inner.refl s)

theorem Inner.failPasses (r : Pass → Bool) (why : Reason) (s : State) : Inner s (failPasses r why s) :=
  Inner.eachPort _ (fun p s => AtPort.failPort r _ p s) s

theorem Inner.raiseAll (n : Notice) (s : State) : Inner s (raiseAll n s) :=
  ⟨rfl, rfl, rfl, rfl, rfl, fun m => by rw [link_raiseAll]; rfl⟩

theorem Inner.loseTriggers (s : State) : Inner s (loseTriggers s) :=
  (((Inner.eachPort _ (fun p s => AtPort.modPort p _ s) s).trans (Inner.failPasses _ _ _)).trans
    (Inner.atPorts _ (fun p s => AtPort.endTestIf _ p s) _)).trans (Inner.raiseAll _ _)

theorem Inner.lossOfLock (s : State) : Inner s (lossOfLock s) := by
  unfold Machine.lossOfLock
  extract_lets s1 s2
  exact ((Inner.raiseAll _ s : Inner s s1).trans (Inner.failPasses _ _ s1 : Inner s1 s2)).trans
    (Inner.atPorts _ (fun p s => AtPort.endTestIf _ p s) s2)

end Sys2Proof.Machine
end

