-- ==== Sys2Proof/Laws/Clock.lean ====
section
/-! SUPPORT. What one reference period leaves and sets, and what the watch of a line does to its low run (R121). -/

namespace Sys2Proof.Machine

/-! ### The low run (R121) -/

/-- The ports whose line is watched (R121). -/
theorem Port.watched_iff {q : Port} :
    q.watched = true ↔ q.state = .ready ∨ q.state = .test ∨ (q.state = .waking ∧ q.wakePulse = .stopped) := by
  unfold Port.watched
  cases q.state <;> cases q.wakePulse <;> simp [Timer.isRunning]

@[simp] theorem Port.lowRun_seenHigh (q : Port) : q.seenHigh.lowRun = 0 := rfl

/-- A line seen high within `n` bit times has a low run of `n` at most, and no longer than before. -/
theorem Port.lowRun_highWithin_le (n : Nat) (q : Port) :
    (q.highWithin n).lowRun ≤ n ∧ (q.highWithin n).lowRun ≤ q.lowRun :=
  ⟨Nat.min_le_left _ _, Nat.min_le_right _ _⟩

/-- A received byte ends with one to ten low bit times, its stop bit counted among them. -/
theorem lowTail_bounds (b : Byte) : 1 ≤ lowTail b ∧ lowTail b ≤ 10 := by revert b; decide +kernel

/-- One more bit time raises the low run by at most 1. -/
theorem lowRunAfter_le (low : Bool) (run : Nat) : lowRunAfter low run ≤ run + 1 := by
  unfold lowRunAfter
  split <;> omega

/-- One period on a line that is not watched changes nothing. -/
theorem Port.watchLine_unwatched {q : Port} (low : Bool) (h : q.watched = false) : q.watchLine low = q := by
  simp [Port.watchLine, h]

/-- One period on a watched line: what is left of the bit time, and the low run when the bit time ends. -/
theorem Port.watchLine_watched {q : Port} (low : Bool) (h : q.watched = true) :
    q.watchLine low =
      { q with
        bitLeft := (passPeriod q.cfg.bitTime q.bitLeft).1
        lowRun := if (passPeriod q.cfg.bitTime q.bitLeft).2 then lowRunAfter low q.lowRun else q.lowRun } := by
  simp [Port.watchLine, h]

/-- The watch of a line changes its low run and its bit time, and nothing else. -/
theorem Port.watchLine_frame (q : Port) (low : Bool) :
    ∃ run left, q.watchLine low = { q with lowRun := run, bitLeft := left } := by
  cases h : q.watched
  · exact ⟨_, _, Port.watchLine_unwatched low h⟩
  · exact ⟨_, _, Port.watchLine_watched low h⟩

/-- One period raises the low run by at most 1. -/
theorem Port.lowRun_watchLine_le (q : Port) (low : Bool) : (q.watchLine low).lowRun ≤ q.lowRun + 1 := by
  cases hw : q.watched
  · rw [Port.watchLine_unwatched low hw]; omega
  · rw [Port.watchLine_watched low hw]
    dsimp only
    split
    · exact lowRunAfter_le low q.lowRun
    · omega

/-- A watched line is stuck exactly when its low run has reached 64; no other line is. -/
theorem Port.isStuck_iff {q : Port} : q.isStuck = true ↔ q.watched = true ∧ 64 ≤ q.lowRun := by simp [Port.isStuck]

/-- Low bit times change the low run, and nothing else; on a line that is not watched, not even that. -/
theorem Port.seenLow_eq (q : Port) (n : Nat) :
    q.seenLow n = { q with lowRun := if q.watched then q.lowRun + n else q.lowRun } := by
  unfold Port.seenLow
  split <;> rfl

theorem faultIfStuck_stuck {p : PortId} {s : State} (h : (s.port p).isStuck = true) :
    faultIfStuck p s = enterFault p .stuck s := by simp [faultIfStuck, h]

theorem faultIfStuck_quiet {p : PortId} {s : State} (h : (s.port p).isStuck = false) : faultIfStuck p s = s := by
  simp [faultIfStuck, h]

/-- The fault of a stuck line leaves the other ports and the rest of the part alone. -/
theorem AtPort.faultIfStuck (p : PortId) (s : State) : AtPort p s (faultIfStuck p s) :=
  AtPort.ite p _ (AtPort.enterFault p .stuck s) (AtPort.refl p s)

/-- LINE_STUCK on a line that is not watched does nothing. -/
theorem execLineStuck_unwatched {p : PortId} {s : State} (h : (s.port p).watched = false) :
    execLineStuck p s = .next s := by
  have hs : (s.modPort p fun q => q.seenLow (64 - q.lowRun)) = s := by simp [State.modPort, Port.seenLow, h]
  simp [execLineStuck, hs, Port.isStuck, h]

/-- LINE_STUCK on a watched line is the entry of FAULT, which stops the low run whatever it was (R112). -/
theorem execLineStuck_watched {p : PortId} {s : State} (h : (s.port p).watched = true) :
    execLineStuck p s = .next (syncStall (enterFault p .stuck s)) := by
  have hw : ((s.port p).seenLow (64 - (s.port p).lowRun)).isStuck = true := by
    rw [Port.seenLow_eq, Port.isStuck_iff]
    refine ⟨h, ?_⟩
    simp only [h, ↓reduceIte]
    omega
  have hf : enterFault p .stuck (s.modPort p fun q => q.seenLow (64 - q.lowRun)) = enterFault p .stuck s := by
    simp [enterFault, Port.seenLow_eq]
  simp [execLineStuck, faultIfStuck, hw, hf]

/-! ### One reference period -/

@[simp] theorem port_passTime (s : State) (p : PortId) :
    (passTime s).port p = (s.port p).tick (Config.lineLow s.choices p.val) := by
  simp [passTime, State.port, get_getElem]

@[simp] theorem claim_passTime (s : State) (c : ClaimId) : (passTime s).claim c = (s.claim c).tick := by
  simp [passTime, State.claim, get_getElem]

@[simp] theorem link_passTime (s : State) (m : Master) : (passTime s).link m = s.link m := rfl
@[simp] theorem choices_passTime (s : State) : (passTime s).choices = s.choices + 1 := rfl
@[simp] theorem pending_passTime (s : State) : (passTime s).pending = s.pending := rfl

/-- With no line stuck after it, a tick is the passing of its period. -/
theorem tick_quiet {s : State} (h : ∀ p, ((passTime s).port p).isStuck = false) : tick s = passTime s := by
  have hn : (allPorts.any fun p => ((passTime s).port p).isStuck) = false :=
    List.any_eq_false.mpr fun p _ => by rw [h p]; decide
  simp only [tick, hn, Bool.false_eq_true, ↓reduceIte]

/-- A property that the passing of time, the fault of a stuck line, the stall timer's following and the count of free
choices keep is kept by a tick. -/
theorem tick_keeps {P : State → Prop} (hp : ∀ s, P s → P (passTime s)) (hf : ∀ p s, P s → P (faultIfStuck p s))
    (hc : ∀ s n, P s → P { s with choices := n }) (hs : ∀ s, P s → P (syncStall s)) {s : State} (h : P s) :
    P (tick s) := by
  unfold tick
  dsimp only
  split
  · exact hs _ (atPorts_keeps hf hc (hp s h))
  · exact hp s h

end Sys2Proof.Machine
end

