-- ==== Sys2Proof/Laws/Lines.lean ====
section
/-! SUPPORT. Bytes on a line: where the bits of a sent byte lie, and what the receiver makes of a byte (R104). -/

namespace Sys2Proof.Machine

/-- A period between the edges of bit `j` lies in that bit. -/
theorem bitAt_between {bitTime j t : Nat} (h : bitEdge j bitTime ≤ t) (h' : t < bitEdge (j + 1) bitTime) :
    bitAt bitTime t = j := by
  unfold bitEdge at h h'
  unfold bitAt
  have : 16 * t + 15 < (j + 1) * bitTime := by omega
  have : j * bitTime ≤ 16 * t + 15 := by omega
  exact Nat.div_eq_of_lt_le (by omega) (by omega)

/-- Between the edges of bit `j` the line has the level of that bit, whatever the period. -/
theorem levelAt_between {levels : List Bool} {bitTime j t : Nat} (h : bitEdge j bitTime ≤ t)
    (h' : t < bitEdge (j + 1) bitTime) : levelAt levels bitTime t = levels.getD j true := by
  rw [levelAt, bitAt_between h h']

/-- The data bits begun never get fewer. -/
theorem bitsBegun_mono (bitTime : Nat) {t u : Nat} (h : t ≤ u) : bitsBegun bitTime t ≤ bitsBegun bitTime u := by
  have := Nat.div_le_div_right (c := bitTime) (show 16 * t + 15 ≤ 16 * u + 15 by omega)
  unfold bitsBegun bitAt
  omega

/-- As many bits are sent as asked for; the line, the checker and the timers are left alone. -/
theorem Pattern.sendBits_frame (k : Nat) (t : Pattern) :
    (t.sendBits k).1.length = k
      ∧ ∃ g i, (t.sendBits k).2 = { t with generator := g, insert := i } := by
  induction k generalizing t with
  | zero => exact ⟨rfl, _, _, rfl⟩
  | succ k ih =>
    obtain ⟨hl, g, i, ht⟩ := ih t.sendBit.2
    exact ⟨by simpa [Pattern.sendBits] using hl, g, i, by simpa [Pattern.sendBits, Pattern.sendBit] using ht⟩

/-- In a byte under way the data bits due leave; as many are sent then as have begun, if not more were before. -/
theorem Pattern.length_bits_sendDue {c : PortConfig} {t : Pattern} {left : Nat} (hp : t.phase = .byte)
    (ht : t.sendTimer = .running left)
    (hb : t.bits.length ≤ bitsBegun c.bitTime (byteTime c.stopBits c.bitTime - left)) :
    (t.sendDue c).bits.length = bitsBegun c.bitTime (byteTime c.stopBits c.bitTime - left) := by
  obtain ⟨hl, g, i, he⟩ :=
    Pattern.sendBits_frame (bitsBegun c.bitTime (byteTime c.stopBits c.bitTime - left) - t.bits.length) t
  simp only [Pattern.sendDue, hp, ht, List.length_append, hl, he]
  omega

/-- Outside a byte under way no bit is due. -/
theorem Pattern.sendDue_idle {c : PortConfig} {t : Pattern} (h : t.phase ≠ .byte ∨ t.sendTimer = .stopped) :
    t.sendDue c = t := by
  unfold Pattern.sendDue
  split
  · simp_all
  · rfl

/-- The middle of a bit lies between its edges, for a bit time of two reference periods or more. -/
theorem bitMiddle_between {bitTime : Nat} (j : Nat) (h : 32 ≤ bitTime) :
    bitEdge j bitTime ≤ bitMiddle j bitTime ∧ bitMiddle j bitTime < bitEdge (j + 1) bitTime := by
  unfold bitEdge bitMiddle
  have h1 : (2 * j + 1) * bitTime = 2 * (j * bitTime) + bitTime := by rw [Nat.add_mul, Nat.mul_assoc, Nat.one_mul]
  have h2 : (j + 1) * bitTime = j * bitTime + bitTime := Nat.succ_mul j bitTime
  omega

/-- Ten samples that are a byte's levels give that byte, well formed by its stop bit. -/
@[simp] theorem ofSamples_byteLevels (b : Byte) (stop : Bool) :
    Reception.ofSamples (byteLevels b stop) = .byte b stop := by
  revert b stop; decide +kernel

@[simp] theorem receive_glitch (p : PortId) (s : State) : receive p s .glitch = s := rfl
@[simp] theorem receive_wellFormed (p : PortId) (s : State) (b : Byte) :
    receive p s (.byte b true) = receiveByte p s b := rfl
@[simp] theorem receive_unframed (p : PortId) (s : State) (b : Byte) :
    receive p s (.byte b false) = receiveUnframed p s := rfl

/-- Well-formed bytes are received one after another. -/
theorem receiveBytes_eq (p : PortId) (bytes : List Byte) (s : State) :
    receiveBytes p bytes s = bytes.foldl (receiveByte p) s := by simp [receiveBytes]

/-- Whether the tag frame of an exchange has gone out. -/
theorem Exchange.isSent_iff {ex : Exchange} :
    ex.isSent = true ↔ ex.phase = .sending ∧ ex.sendTimer = .running 0 := by
  unfold Exchange.isSent
  rcases ex.sendTimer with _ | (_ | n) <;> simp [Timer.isOut]

/-- Whether an exchange is at the end of a byte of its tag frame: a whole number of bytes, fewer than all, is left. -/
theorem Exchange.atByteEnd_iff {ex : Exchange} :
    ex.atByteEnd = true ↔ ex.phase = .sending
      ∧ ∃ k, k < ex.frame.length ∧ ex.sendTimer = .running (k * byteTime ex.stopBits ex.bitTime) := by
  simp [Exchange.atByteEnd, List.any_eq_true]

end Sys2Proof.Machine
end

