-- ==== Sys2Proof/Laws/Lookups.lean ====
section
/-! SUPPORT. What the look-ups of passes and plan entries find, also after an update of the one that they name, and
the positions that a SWEEP test takes. -/

namespace Sys2Proof.Machine

/-! ### Passes and plan entries by tag -/

theorem Port.findPass_tag {q : Port} {t : Tag} {x : Pass} (h : q.findPass t = some x) : x.tag = t := by
  have := List.find?_some h
  simpa using this

theorem Port.findPass_mem {q : Port} {t : Tag} {x : Pass} (h : q.findPass t = some x) : x ∈ q.queue :=
  List.mem_of_find?_eq_some h

theorem Port.findEntry_tag {q : Port} {t : Tag} {e : PlanEntry} (h : q.findEntry t = some e) : e.tag = t := by
  have := List.find?_some h
  simpa using this

theorem Port.findEntry_mem {q : Port} {t : Tag} {e : PlanEntry} (h : q.findEntry t = some e) : e ∈ q.plan :=
  List.mem_of_find?_eq_some h

theorem nodup_tag_unique {l : List Pass} {x y : Pass} (hd : (l.map Pass.tag).Nodup) (hx : x ∈ l) (hy : y ∈ l)
    (h : x.tag = y.tag) : x = y := by
  induction l with
  | nil => cases hx
  | cons a r ih =>
    simp only [List.map_cons, List.nodup_cons, List.mem_map, not_exists, not_and] at hd
    rcases List.mem_cons.mp hx with hx' | hx' <;> rcases List.mem_cons.mp hy with hy' | hy'
    · rw [hx', hy']
    · exact absurd (hx' ▸ h.symm) (hd.1 y hy')
    · exact absurd (hy' ▸ h) (hd.1 x hx')
    · exact ih hd.2 hx' hy'

/-- With distinct tags the pass found is the only one with its tag. -/
theorem Port.findPass_unique {q : Port} {t : Tag} {x y : Pass} (hd : (q.queue.map Pass.tag).Nodup)
    (h : q.findPass t = some x) (hy : y ∈ q.queue) (ht : y.tag = t) : y = x :=
  nodup_tag_unique hd hy (Port.findPass_mem h) (ht.trans (Port.findPass_tag h).symm)

/-- The pass found after a change of the pass with a tag, which keeps tags. -/
theorem State.findPass_modPass {f : Pass → Pass} (hf : ∀ x, (f x).tag = x.tag) (p : PortId) (t u : Tag) (s : State) :
    (modPass p t f s).findPass p u = (s.findPass p u).map fun x => if x.tag == t then f x else x := by
  simp only [State.findPass, modPass, State.port_modPort_self, Port.findPass, List.find?_map]
  congr 2
  funext x
  simp only [Function.comp]
  split <;> simp [hf]

/-- The entry found after a change of the entry of a tag, which keeps tags. -/
theorem Port.findEntry_modEntry {f : PlanEntry → PlanEntry} (hf : ∀ e, (f e).tag = e.tag) (p : PortId) (t u : Tag)
    (s : State) :
    ((modEntry p t f s).port p).findEntry u = ((s.port p).findEntry u).map fun e => if e.tag == t then f e else e := by
  simp only [modEntry, State.port_modPort_self, Port.findEntry, List.find?_map]
  congr 2
  funext x
  simp only [Function.comp]
  split <;> simp [hf]

/-! ### Positions of a sweep (R163 to R165) -/

theorem mul_le_of_mod_zero {y step k : Nat} (h : y % step = 0) (hk : k ≤ y / step) : k * step ≤ y := by
  have := Nat.div_add_mod y step
  rw [h, Nat.add_zero, Nat.mul_comm] at this
  exact this ▸ Nat.mul_le_mul_right step hk

theorem le_mul_of_mod_zero {y step k : Nat} (h : y % step = 0) (hk : y / step ≤ k) : y ≤ k * step := by
  have := Nat.div_add_mod y step
  rw [h, Nat.add_zero, Nat.mul_comm] at this
  exact this ▸ Nat.mul_le_mul_right step hk

/-- `sweepAfter` is the first multiple strictly ahead (R164, R165). -/
theorem sweepAfter_first (d : Direction) {step cpr a : Nat} (h : 1 ≤ step) (ha : a < cpr) :
    firstMultiple d false step cpr a (sweepAfter d step cpr a) := by
  cases d with
  | forward =>
    have least : ∀ y, y % step = 0 → a < y → (a / step + 1) * step ≤ y := fun y hy hlt =>
      mul_le_of_mod_zero hy (by
        have : a / step < y / step := by
          refine (Nat.div_lt_iff_lt_mul h).mpr ?_
          have := Nat.div_add_mod y step
          rw [hy, Nat.add_zero, Nat.mul_comm] at this
          omega
        omega)
    have ahead : a < (a / step + 1) * step := by
      have := Nat.lt_div_mul_add h (a := a)
      rw [Nat.add_mul]; omega
    simp only [sweepAfter]
    split
    · next hx => exact ⟨⟨by simp, hx, ahead⟩, fun y hy _ hlt => least y hy hlt⟩
    · next hx => exact fun y hy hc hlt => hx (Nat.lt_of_le_of_lt (least y hy hlt) hc)
  | reverse =>
    simp only [sweepAfter]
    split
    · next h0 => exact fun y _ _ hlt => by simp only [aheadOf] at hlt; simp at hlt; omega
    · next h0 =>
      have le : (a - 1) / step * step ≤ a - 1 := Nat.div_mul_le_self _ _
      refine ⟨⟨by simp, by omega, by simp only [aheadOf]; simp; omega⟩, fun y hy _ hlt => ?_⟩
      simp only [aheadOf] at hlt ⊢
      simp at hlt ⊢
      exact le_mul_of_mod_zero hy (Nat.div_le_div_right (by omega))

/-- `sweepFrom` is the first multiple at or ahead (R163). -/
theorem sweepFrom_first (d : Direction) {step cpr a : Nat} (h : 1 ≤ step) (ha : a < cpr) :
    firstMultiple d true step cpr a (sweepFrom d step cpr a) := by
  cases d with
  | forward =>
    have least : ∀ y, y % step = 0 → a ≤ y → (a + step - 1) / step * step ≤ y := fun y hy hle =>
      mul_le_of_mod_zero hy (by
        refine Nat.le_of_lt_succ ((Nat.div_lt_iff_lt_mul h).mpr ?_)
        have := Nat.div_add_mod y step
        rw [hy, Nat.add_zero, Nat.mul_comm] at this
        rw [Nat.succ_mul]; omega)
    have ahead : a ≤ (a + step - 1) / step * step := by
      have := Nat.lt_div_mul_add h (a := a + step - 1)
      omega
    simp only [sweepFrom]
    split
    · next hx => exact ⟨⟨by simp, hx, ahead⟩, fun y hy _ hle => least y hy hle⟩
    · next hx => exact fun y hy hc hle => hx (Nat.lt_of_le_of_lt (least y hy hle) hc)
  | reverse =>
    have le : a / step * step ≤ a := Nat.div_mul_le_self _ _
    refine ⟨⟨by simp, by omega, le⟩, fun y hy _ hle => ?_⟩
    exact le_mul_of_mod_zero hy (Nat.div_le_div_right hle)

end Sys2Proof.Machine
end

