-- ==== Sys2Proof/Laws/PerInstr.lean ====
section
/-! SUPPORT. For every command: the frame that a request command spells passes the checks of R176, so no
request command is turned away by its framing. -/

namespace Sys2Proof.Machine

/-- A frame whose length the code allows, with its own check byte, passes every check of R176. -/
theorem frameFault_requestFrame (code : Byte) (params : List Byte) (h : params.length ≤ 28)
    (hm : params.length ∈ lengthsOf code) : frameFault (requestFrame code params) = none := by
  have hl : (byteOf params.length).toNat = params.length := by
    simp only [byteOf, BitVec.toNat_ofNat]
    omega
  have hne : lengthsOf code ≠ [] := fun e => by simp [e] at hm
  have hmax : ¬ maxParams < params.length := by unfold maxParams; omega
  simp only [requestFrame, rawFrame, frameFault, hl, if_neg hmax, List.getLast?_append, List.getLast?_singleton,
    Option.some_or, List.dropLast_concat, ne_eq, not_true, if_false, if_neg hne, if_pos hm]

@[simp] theorem length_leBytes (k x : Nat) : (leBytes k x).length = k := by
  induction k generalizing x with
  | zero => rfl
  | succ k ih => simp [leBytes, ih]

end Sys2Proof.Machine

namespace Sys2Proof.Laws.Frames

open Sys2Proof.Machine

/-- The frame of a request command passes every check of R176. -/
def Statement (i : Instr) : Prop :=
  ∀ m code params, requestOf i = some (m, code, params) → frameFault (requestFrame code params) = none

/-- A command that is no request spells no frame. -/
theorem of_event {i : Instr} (h : requestOf i = none) : Statement i := fun m code params e => by
  rw [h] at e
  exact absurd e (by simp)

/-- A request whose parameters have a length that its code allows. -/
theorem of_request {i : Instr} {m : Master} {code : Byte} {params : List Byte}
    (h : requestOf i = some (m, code, params)) (hl : params.length ≤ 28) (hm : params.length ∈ lengthsOf code) :
    Statement i := fun m' code' params' e => by
  rw [h] at e
  simp only [Option.some.injEq, Prod.mk.injEq] at e
  obtain ⟨rfl, rfl, rfl⟩ := e
  exact frameFault_requestFrame _ _ hl hm

theorem powerOnReset (encA encB intlk sel0 sel1 sel2 : Bool) : Statement (.powerOnReset encA encB intlk sel0 sel1 sel2) := of_event rfl

theorem decodedCount (move : Move) (encZ : Bool) : Statement (.decodedCount move encZ) := of_event rfl

theorem quadratureError : Statement .quadratureError := of_event rfl

theorem stallTimerExpiry : Statement .stallTimerExpiry := of_event rfl

theorem trigPulseEnd (p : PortId) : Statement (.trigPulseEnd p) := of_event rfl

theorem tagFrameSent (p : PortId) : Statement (.tagFrameSent p) := of_event rfl

theorem readBackError (p : PortId) : Statement (.readBackError p) := of_event rfl

theorem returnFrameReceived (p : PortId) (bytes : List Byte) : Statement (.returnFrameReceived p bytes) := of_event rfl

theorem returnByteFrameError (p : PortId) : Statement (.returnByteFrameError p) := of_event rfl

theorem returnTimeout (p : PortId) : Statement (.returnTimeout p) := of_event rfl

theorem strayByte (p : PortId) : Statement (.strayByte p) := of_event rfl

theorem lineStuck (p : PortId) : Statement (.lineStuck p) := of_event rfl

theorem wakePulseEnd (p : PortId) : Statement (.wakePulseEnd p) := of_event rfl

theorem readyReturn (p : PortId) (bytes : List Byte) : Statement (.readyReturn p bytes) := of_event rfl

theorem wakeTimeout (p : PortId) : Statement (.wakeTimeout p) := of_event rfl

theorem intervalTimerExpiry (p : PortId) : Statement (.intervalTimerExpiry p) := of_event rfl

theorem echoOnSent (p : PortId) (mismatch : Bool) : Statement (.echoOnSent p mismatch) := of_event rfl

theorem patternByteSent (p : PortId) : Statement (.patternByteSent p) := of_event rfl

theorem patternEchoReceived (p : PortId) (echo : Byte) : Statement (.patternEchoReceived p echo) := of_event rfl

theorem echoMissing (p : PortId) : Statement (.echoMissing p) := of_event rfl

theorem patternBlockJudged (p : PortId) : Statement (.patternBlockJudged p) := of_event rfl

theorem echoOffSent (p : PortId) (mismatch : Bool) : Statement (.echoOffSent p mismatch) := of_event rfl

theorem intlkAsserted : Statement .intlkAsserted := of_event rfl

theorem intlkDeasserted : Statement .intlkDeasserted := of_event rfl

theorem qualificationTimerExpiry : Statement .qualificationTimerExpiry := of_event rfl

theorem handoverExpiry (c : ClaimId) : Statement (.handoverExpiry c) := of_event rfl

theorem selectAsserted (m : Master) : Statement (.selectAsserted m) := of_event rfl

theorem selectDeasserted (m : Master) (clocked : Bool) : Statement (.selectDeasserted m clocked) := of_event rfl

theorem unknownRequestCode (m : Master) (code : Byte) (params : List Byte) : Statement (.unknownRequestCode m code params) := of_event rfl

theorem requestBadCheck (m : Master) (code : Byte) (params : List Byte) (check : Byte) : Statement (.requestBadCheck m code params check) := of_event rfl

theorem requestBadLength (m : Master) (code : Byte) (length : Byte) (rest : List Byte) : Statement (.requestBadLength m code length rest) := of_event rfl

theorem putBlade (m : Master) (image : BladeImage) : Statement (.putBlade m image) :=
  of_request rfl (by simp [bladeParams]) (by simp [bladeParams, lengthsOf])

theorem dropBlade (m : Master) (blade : Byte) : Statement (.dropBlade m blade) :=
  of_request rfl (by simp) (by simp [lengthsOf])

theorem readBlade (m : Master) (selector value : Byte) : Statement (.readBlade m selector value) :=
  of_request rfl (by simp) (by simp [lengthsOf])

theorem openPlan (m : Master) : Statement (.openPlan m) :=
  of_request rfl (by simp) (by simp [lengthsOf])

theorem activatePlan (m : Master) : Statement (.activatePlan m) :=
  of_request rfl (by simp) (by simp [lengthsOf])

theorem setAngleConfig (m : Master) (write : Option AngleParams) : Statement (.setAngleConfig m write) := by
  cases write with
  | none => exact of_request rfl (by simp [angleParams]) (by simp [angleParams, lengthsOf])
  | some w => exact of_request rfl (by simp [angleParams]) (by simp [angleParams, lengthsOf])

theorem setAdapt (m : Master) (write : Option AdaptParams) : Statement (.setAdapt m write) := by
  cases write with
  | none => exact of_request rfl (by simp [adaptParams]) (by simp [adaptParams, lengthsOf])
  | some w => exact of_request rfl (by simp [adaptParams]) (by simp [adaptParams, lengthsOf])

theorem resetCorrection (m : Master) (scope blade : Byte) : Statement (.resetCorrection m scope blade) :=
  of_request rfl (by simp) (by simp [lengthsOf])

theorem setPermitConfig (m : Master) (write : Option Half) : Statement (.setPermitConfig m write) := by
  cases write with
  | none => exact of_request rfl (by simp [permitParams]) (by simp [permitParams, lengthsOf])
  | some w => exact of_request rfl (by simp [permitParams]) (by simp [permitParams, lengthsOf])

theorem claim (m : Master) (name : Byte) : Statement (.claim m name) :=
  of_request rfl (by simp) (by simp [lengthsOf])

theorem release (m : Master) (name : Byte) : Statement (.release m name) :=
  of_request rfl (by simp) (by simp [lengthsOf])

theorem take (m : Master) (name : Byte) : Statement (.take m name) :=
  of_request rfl (by simp) (by simp [lengthsOf])

theorem decline (m : Master) (name : Byte) : Statement (.decline m name) :=
  of_request rfl (by simp) (by simp [lengthsOf])

theorem portOn (m : Master) (port : Byte) : Statement (.portOn m port) :=
  of_request rfl (by simp) (by simp [lengthsOf])

theorem portOff (m : Master) (port force : Byte) : Statement (.portOff m port force) :=
  of_request rfl (by simp) (by simp [lengthsOf])

theorem resumePort (m : Master) (port : Byte) : Statement (.resumePort m port) :=
  of_request rfl (by simp) (by simp [lengthsOf])

theorem setPortConfig (m : Master) (port : Byte) (write : Option PortParams) : Statement (.setPortConfig m port write) := by
  cases write with
  | none => exact of_request rfl (by simp [portParams]) (by simp [portParams, lengthsOf])
  | some w => exact of_request rfl (by simp [portParams]) (by simp [portParams, lengthsOf])

theorem readPortCounters (m : Master) (port : Byte) : Statement (.readPortCounters m port) :=
  of_request rfl (by simp) (by simp [lengthsOf])

theorem startTest (m : Master) (port : Byte) (test : TestParams) : Statement (.startTest m port test) :=
  of_request rfl (by simp [testParams]) (by simp [testParams, lengthsOf])

theorem stopTest (m : Master) (port : Byte) : Statement (.stopTest m port) :=
  of_request rfl (by simp) (by simp [lengthsOf])

theorem insertError (m : Master) (port : Byte) : Statement (.insertError m port) :=
  of_request rfl (by simp) (by simp [lengthsOf])

theorem repeatNext (m : Master) (value : Byte) : Statement (.repeatNext m value) :=
  of_request rfl (by simp) (by simp [lengthsOf])

theorem submitPass (m : Master) (pass : SubmitParams) : Statement (.submitPass m pass) :=
  of_request rfl (by simp [submitParams]) (by simp [submitParams, lengthsOf])

theorem abortPass (m : Master) (tag : Byte) : Statement (.abortPass m tag) :=
  of_request rfl (by simp) (by simp [lengthsOf])

theorem queryPass (m : Master) (tag : Byte) : Statement (.queryPass m tag) :=
  of_request rfl (by simp) (by simp [lengthsOf])

theorem hold (m : Master) : Statement (.hold m) :=
  of_request rfl (by simp) (by simp [lengthsOf])

theorem unhold (m : Master) : Statement (.unhold m) :=
  of_request rfl (by simp) (by simp [lengthsOf])

theorem fetch (m : Master) : Statement (.fetch m) :=
  of_request rfl (by simp) (by simp [lengthsOf])

theorem clearNotices (m : Master) (mask : Byte) : Statement (.clearNotices m mask) :=
  of_request rfl (by simp) (by simp [lengthsOf])

theorem setNoticeEnable (m : Master) (write : Option Byte) : Statement (.setNoticeEnable m write) := by
  cases write with
  | none => exact of_request rfl (by simp [enableParams]) (by simp [enableParams, lengthsOf])
  | some w => exact of_request rfl (by simp [enableParams]) (by simp [enableParams, lengthsOf])

theorem readStatus (m : Master) : Statement (.readStatus m) :=
  of_request rfl (by simp) (by simp [lengthsOf])

theorem scanReset (m : Master) : Statement (.scanReset m) :=
  of_request rfl (by simp) (by simp [lengthsOf])

theorem linkReset (m : Master) : Statement (.linkReset m) :=
  of_request rfl (by simp) (by simp [lengthsOf])

end Sys2Proof.Laws.Frames
end

