-- ==== Sys2Proof/Laws/Requests.lean ====
section
/-! SUPPORT. How a request's effect and its reply go together: a request whose block moves the part from `s` to `t`
answers `t` with the reply on the link; the consumed prefix passes through every update of another unit. -/

namespace Sys2Proof.Machine

/-! ### Numbers in range read back -/

@[simp] theorem readPort_byteOf (p : PortId) : readPort (byteOf p.val) = some p := by revert p; decide

@[simp] theorem readClaim_byteOf (c : ClaimId) : readClaim (byteOf c.val) = some c := by revert c; decide

@[simp] theorem readTag_byteOf (t : Tag) : readTag (byteOf t.val) = some t := by revert t; decide

theorem readPort_none {k : Byte} (h : 4 ≤ k.toNat) : readPort k = none := by simp [readPort]; omega

theorem readClaim_none {k : Byte} (h : 5 ≤ k.toNat) : readClaim k = none := by simp [readClaim]; omega

theorem readTag_none {k : Byte} (h : 64 ≤ k.toNat) : readTag k = none := by simp [readTag]; omega

/-! ### Updates of two links -/

/-- Updates of one link whose order does not matter, and updates of two links, commute. -/
theorem State.modLink_comm (s : State) (m k : Master) (f g : Link → Link) (h : ∀ l, g (f l) = f (g l)) :
    (s.modLink m f).modLink k g = (s.modLink k g).modLink m f := by
  refine State.eq_of_fields rfl rfl (fun _ => rfl) rfl (fun _ => rfl) (fun j => ?_) rfl rfl
  simp only [State.link_modLink]
  by_cases a : j = m <;> by_cases b : j = k <;> by_cases c : k = m <;> simp_all

/-! ### The consumed prefix passes through -/

section Through
variable (m k : Master) (s : State) (p : PortId) (c : ClaimId)
theorem consume_modPort (f : Port → Port) : (consumeRepeats m s).modPort p f = consumeRepeats m (s.modPort p f) := rfl
theorem consume_setClaim (x : Claim) : (consumeRepeats m s).setClaim c x = consumeRepeats m (s.setClaim c x) := rfl
theorem consume_modPlan (f : PlanStore → PlanStore) :
    (consumeRepeats m s).modPlan f = consumeRepeats m (s.modPlan f) := rfl
theorem consume_modPermit (f : PermitUnit → PermitUnit) :
    (consumeRepeats m s).modPermit f = consumeRepeats m (s.modPermit f) := rfl
theorem consume_modAngle (f : AngleUnit → AngleUnit) :
    (consumeRepeats m s).modAngle f = consumeRepeats m (s.modAngle f) := rfl
theorem consume_modLink (f : Link → Link) (h : ∀ l, f { l with repeats := none } = { f l with repeats := none }) :
    (consumeRepeats m s).modLink k f = consumeRepeats m (s.modLink k f) :=
  State.modLink_comm s m k _ f h
theorem consume_raise (n : Notice) : raise n k (consumeRepeats m s) = consumeRepeats m (raise n k s) :=
  consume_modLink m k s _ fun _ => rfl
end Through

/-! ### A request and its reply -/

/-- A request whose block moves the part from `s` to `t`. -/
theorem request_answered {m : Master} {s t : State} {code : Byte} {params : List Byte} {act : State → Answer}
    {status : Status} {data : List Byte} (h : s.listens m)
    (ha : act (consumeRepeats m s) = ⟨status, data, consumeRepeats m t⟩) :
    request m code params act s = t.answered m code params status data := by
  rw [request_listens _ _ _ h, ha]
  simp [consumeRepeats, State.answered, Link.answered, Link.respond]

/-- What an answered request leaves on its link. -/
theorem link_answered (s : State) (m : Master) (code : Byte) (params : List Byte) (status : Status)
    (data : List Byte) :
    (s.answered m code params status data).link m
      = (s.link m).answered (requestFrame code params) status data := by simp [State.answered]

end Sys2Proof.Machine
end

