-- ==== Sys2Proof/Tests/Slice0.lean ====
section
/-! SUPPORT. Tests: the well-formedness smoke tests, a small test of one step for the commands, from the rules'
tables and the worked examples, and for every statement with hypotheses a state and operands that meet them. -/

namespace Sys2Proof.Tests

-- Each kernel evaluation below waits for every theorem before it; one at a time keeps one thread waiting.
set_option Elab.async false

open Sys2Proof.Machine

/-! ### Well-formedness: each check refuses an ill-formed command -/

theorem test_wf_return_needs_a_byte : (Instr.returnFrameReceived 0 []).wf = false := by decide

theorem test_wf_return_has_at_most_nine_bytes :
    (Instr.returnFrameReceived 0 (List.replicate 10 0)).wf = false
      ∧ (Instr.returnFrameReceived 0 (List.replicate 9 0)).wf = true := by decide +kernel

theorem test_wf_ready_return_needs_a_byte : (Instr.readyReturn 0 []).wf = false := by decide

theorem test_wf_ready_return_has_at_most_three_bytes :
    (Instr.readyReturn 0 [1, 2, 3, 4]).wf = false ∧ (Instr.readyReturn 0 [1, 2, 3]).wf = true := by decide

theorem test_wf_unknown_code_is_not_a_request_code :
    (Instr.unknownRequestCode 0 0x53 []).wf = false ∧ (Instr.unknownRequestCode 0 0x54 []).wf = true := by decide +kernel

theorem test_wf_unknown_code_has_at_most_28_parameters :
    (Instr.unknownRequestCode 0 0x54 (List.replicate 29 0)).wf = false
      ∧ (Instr.unknownRequestCode 0 0x54 (List.replicate 28 0)).wf = true := by decide +kernel

theorem test_wf_bad_check_is_not_the_right_check :
    (Instr.requestBadCheck 0 0x53 [] (linkCheck [0x53, 0])).wf = false
      ∧ (Instr.requestBadCheck 0 0x53 [] (linkCheck [0x53, 0] + 1)).wf = true := by decide +kernel

theorem test_wf_bad_check_has_at_most_28_parameters :
    (Instr.requestBadCheck 0 0x53 (List.replicate 29 0) 0).wf = false := by decide +kernel

theorem test_wf_bad_length_is_not_an_allowed_length :
    (Instr.requestBadLength 0 0x53 0 [linkCheck [0x53, 0]]).wf = false
      ∧ (Instr.requestBadLength 0 0x53 1 [0, linkCheck [0x53, 1, 0]]).wf = true := by decide +kernel

theorem test_wf_bad_length_has_its_own_bytes :
    (Instr.requestBadLength 0 0x53 1 [linkCheck [0x53, 1]]).wf = false
      ∧ (Instr.requestBadLength 0 0x53 29 [0]).wf = true
      ∧ (Instr.requestBadLength 0 0x53 29 [0, 0]).wf = false := by decide +kernel

/-! ### States for the tests -/

/-- Blade 7 of the worked examples. -/
def blade7 : Blade where
  number := 7
  start := 650
  close := 1450
  mark := some 710
  correction := 0
  tracking := .track
  excluded := false
  completed := 0

/-- Every port READY, the lock LOCKED, the permit given, the plan ACTIVE with blade 7; every claim held by master
0, and every link in REQUEST. -/
def scanning : State :=
  { State.reset with
    angle := { AngleUnit.powerOn with lock := .locked }
    plan := { PlanStore.powerOn with blades := [blade7], state := .active }
    ports := Vector.replicate 4 { Port.powerOn with state := .ready }
    permit := { PermitUnit.powerOn with qualification := .lineOk, permit := .permitted }
    claims := Vector.replicate 5 (.held 0)
    links := Vector.replicate 3 { Link.powerOn with phase := .request } }

/-- The same with the plan in EDIT. -/
def editing : State := scanning.modPlan fun ps => { ps with state := .edit }

/-- Port 1 changed. -/
def port1 (f : Port → Port) : State := scanning.modPort 1 f

/-- Link 0 changed. -/
def link0 (f : Link → Link) : State := scanning.modLink 0 f

/-- A pass of master 0 on blade 7, tag 3, step 20, ten shots of six data bytes. -/
def pass3 : Pass where
  tag := 3
  owner := 0
  blade := 7
  dir := .forward
  step := 20
  n := 10
  len := 6
  seeded := false
  edge := true
  follow := true
  repeats := 2
  revsDone := 0
  fired := 0
  clean := 0
  flagged := 0
  marks := Marks.none
  flags := PassFlags.none
  lastEdge := none
  state := .queued
  pendingOutcome := none
  observation := .empty

/-- Its plan entry in the first revolution of 7.6. -/
def entry3 : PlanEntry where
  tag := 3
  first := 650
  last := 830
  dir := .forward
  n := 10
  step := 20
  next := 0
  fired := 0

/-- Its first shot. -/
def shot3 : Shot where
  kind := .pass
  tag := 3
  owner := 0
  blade := 7
  index := 0
  angle := 650
  revolution := 0
  slip := false
  len := 6
  seeded := false
  orphan := false

/-- An exchange of a shot, its tag frame out, or its return timer run out when it awaits its return. -/
def exchangeOf (sh : Shot) (ph : ExchangePhase) : Exchange where
  shot := sh
  frame := sh.frame
  sendTimer := match ph with | .sending => .running 0 | .awaiting => .stopped
  phase := ph
  received := []
  timer := match ph with | .sending => .stopped | .awaiting => .running 0
  bitTime := 640
  stopBits := 1
  rto := 16

/-- The pass in a state, on port 1 of the scanning part, with its plan entry when it is on the table, its records'
entries reserved, and the stall timer running when it is on the table. -/
def onPort1 (st : PassState) (q : Port → Port) : State :=
  let x : Pass := { pass3 with state := st }
  let s := port1 fun p =>
    q { p with queue := [x], plan := if x.onTable then [entry3] else [] }
  let s := s.modAngle fun a => { a with stall := if x.onTable then .running 20000000 else .stopped }
  s.modLink 0 fun l => { l with reserved := 11 }

/-- The stall timer has run out. -/
def stalled (s : State) : State := s.modAngle fun a => { a with stall := .running 0 }

/-- The qualification timer has run out. -/
def qualified (s : State) : State := s.modPermit fun u => { u with timer := .running 0 }

/-- The OPEN pass in flight on port 1, a PLANNED pass behind it and a QUEUED one. -/
def threePasses : State :=
  onPort1 .opened fun q =>
    { q with
      exchange := some (exchangeOf shot3 .sending)
      queue := q.queue ++ [{ pass3 with tag := 4, state := .planned }, { pass3 with tag := 5 }]
      plan := q.plan ++ [{ entry3 with tag := 4, first := 900, last := 1080 }] }

/-- A DRAINING pass with its outcome pending behind its exchange and a QUEUED one, one error short of ERR_LIMIT. -/
def atLimit (ph : ExchangePhase) : State :=
  onPort1 .draining fun q =>
    { q with
      exchange := some (exchangeOf shot3 ph), consecutive := 2
      queue := [{ pass3 with state := .draining, pendingOutcome := some .aborted }, { pass3 with tag := 4 }] }

/-- A SHOT test of master 0 on port 1. -/
def shotTest : Test where
  recipient := 0
  counter := 0
  mode := .shot 6 100 (.running 0)

/-- A PATTERN test of master 0. -/
def patternTest (pt : Pattern) : Test where
  recipient := 0
  counter := 0
  mode := .pattern pt

/-- A PATTERN test whose first byte or frame has gone out. -/
def sent (loop : Loop) : Pattern :=
  { Pattern.start loop [] with
    sendTimer := .running 0, bits := match loop with | .internal => List.replicate 8 true | .echo => [] }

/-- Port 1 in TEST with a test. -/
def testing (t : Test) : State := port1 fun q => { q with state := .test, test := some t }

/-- The state a command answers, or the state itself. -/
def after (i : Instr) (s : State) : State :=
  match exec i s with
  | .next t => t
  | .fault _ | .refused _ => s

/-- The reply that stands on link `m`. -/
def reply (m : Master) (s : State) : List Byte := (s.link m).reply

/-! ### Chapter 12: check bytes, fields and records -/

/-- The two checks over the nine bytes 31 to 39. -/
theorem test_check_bytes :
    headCheck 0 [0x31, 0x32, 0x33, 0x34, 0x35, 0x36, 0x37, 0x38, 0x39] = 0xF4
      ∧ linkCheck [0x31, 0x32, 0x33, 0x34, 0x35, 0x36, 0x37, 0x38, 0x39] = 0xF7 := by decide +kernel

theorem test_fields_are_little_endian :
    leBytes 4 65536 = [0, 0, 1, 0] ∧ leBytesInt 2 (-2) = [0xFE, 0xFF] ∧ ofLeBytes [0xD0, 0x07] = 2000 := by decide

theorem test_shot_record_bytes :
    (shotRecord 1 shot3 .seq [3, 5, 0, 0, 64, 0]).bytes
      = [1, 3, 1, 7, 0, 0, 0, 0x8A, 2, 0, 0x40, 0, 6, 3, 0, 0, 64, 0, 0, 0] := by decide +kernel

theorem test_pass_end_record_bytes :
    (passEndRecord 1 { pass3 with fired := 15, clean := 14, revsDone := 1 } (.failed .interlock)).bytes
      = [3, 3, 1, 7, 3, 1, 1, 15, 0, 14, 0, 0, 0, 0, 0, 0, 0, 0, 0, 0] := by decide +kernel

theorem test_tag_frame_of_a_shot : shot3.frame = [0x43, 0, 0, headCheck 0 [0x43, 0, 0]] := by decide +kernel

/-! ### Chapter 1: the encoder -/

theorem test_count_ahead_raises_the_position :
    (after (.decodedCount .ahead false) State.reset).angle
      = { AngleUnit.powerOn with decoder := .hl, position := 1 } := by decide +kernel

theorem test_count_back_starts_the_reverse_run :
    (after (.decodedCount .back false) State.reset).angle
      = { AngleUnit.powerOn with decoder := .lh, position := -1, reverseRun := 1 } := by decide +kernel

theorem test_first_index_enters_seeking :
    let s := State.reset.modAngle fun a => { a with decoder := .lh, position := 99 }
    let t := after (.decodedCount .ahead true) s
    t.angle.lock = .seeking ∧ t.angle.reference = 100 ∧ (t.link 2).flags = 0x04 := by decide +kernel

theorem test_quadrature_error_in_locked_is_a_slip :
    let t := after .quadratureError scanning
    t.angle.decoder = .hh ∧ t.angle.suspect = true ∧ t.angle.slipWindow = [.slip] ∧ t.angle.lock = .locked := by
  decide +kernel

theorem test_origin_event_advances_the_revolution :
    let s := scanning.modAngle fun a => { a with position := -1, originArmed := true, revolution := 0xFFFFFF }
    let t := after (.decodedCount .ahead false) s
    t.angle.revolution = 0 ∧ t.angle.originArmed = false ∧ t.angle.value = 0 := by decide +kernel

theorem test_stall_expiry_fails_the_planned_pass :
    let t := after .stallTimerExpiry (stalled (onPort1 .planned id))
    (t.port 1).queue = [] ∧ (t.port 1).plan = [] ∧ (t.link 0).reserved = 0
      ∧ (t.link 0).records
          = [.passEnd (passEndRecord 1 { pass3 with state := .planned } (.failed .tableStall))] := by
  decide +kernel

/-- The timer has run out, and a count and the expiry are taken in either order: behind the count it does not happen. -/
theorem test_stall_expiry_and_a_count_in_either_order :
    let s := stalled (onPort1 .planned id)
    let t := after (.decodedCount .ahead false) s
    t.angle.stall = .running 20000000 ∧ after .stallTimerExpiry t = t ∧ (t.port 1).queue ≠ []
      ∧ ((after (.decodedCount .ahead false) (after .stallTimerExpiry s)).port 1).queue = [] := by decide +kernel

/-! ### Chapters 3 to 5 and 7: passes, planning, firing, edge tracking -/

/-- The shot count of 3.9: nine positions fit with step 100, and 101 with step 8 (R44). -/
theorem test_shot_counts_of_the_manual :
    shotCount blade7 100 0 = 9 ∧ shotCount blade7 8 0 = 101 ∧ shotCount blade7 8 40 = 40
      ∧ shotCount blade7 5 0 = 161 ∧ shotCount blade7 5 120 = 120 ∧ shotCount blade7 801 0 = 1 := by decide

theorem test_submission_takes_the_lowest_tag :
    let t := after (.submitPass 1 ⟨1, 7, 0, 100, 0, 6, 0⟩) (link0 id)
    reply 1 t = replyFrame .ok [0, 9, 1] ∧ (t.port 1).queue.length = 1 ∧ (t.link 1).reserved = 1 := by
  decide +kernel

theorem test_submission_with_an_unknown_blade :
    reply 1 (after (.submitPass 1 ⟨1, 8, 0, 100, 0, 6, 0⟩) scanning) = replyFrame .noSuchBlade [0xFF, 0, 0] := by
  decide +kernel

theorem test_repeat_prefix :
    ((after (.repeatNext 1 16) scanning).link 1).repeats = some 16
      ∧ ((after (.repeatNext 1 17) (scanning.modLink 1 fun l => { l with repeats := some 2 })).link 1).repeats = none := by
  decide +kernel

theorem test_abort_of_a_queued_pass :
    let t := after (.abortPass 0 3) (onPort1 .queued id)
    reply 0 t = replyFrame .ok [0, 1] ∧ (t.port 1).queue = [] ∧ (t.link 0).flags = 0x03 := by decide +kernel

/-- Its pending shot is dropped ABORTED, the nine unfired entries are released, and it ends behind another's exchange. -/
theorem test_abort_of_an_open_pass_with_a_pending_shot :
    let s := onPort1 .opened fun q =>
      { q with
        exchange := some (exchangeOf { shot3 with tag := 4 } .sending), slot := some shot3
        plan := [{ entry3 with next := 1, fired := 1 }] }
    let t := after (.abortPass 0 3) s
    (t.link 0).records.length = 2 ∧ (t.link 0).reserved = 0 ∧ (t.port 1).slot = none ∧ (t.port 1).plan = []
      ∧ (t.port 1).queue = [] ∧ reply 0 t = replyFrame .ok [2, 1] := by decide +kernel

theorem test_abort_of_another_owners_pass :
    reply 1 (after (.abortPass 1 3) (onPort1 .queued id)) = replyFrame .notHolder [] := by decide +kernel

theorem test_query_reports_the_pass :
    reply 2 (after (.queryPass 2 3) (onPort1 .queued id))
      = replyFrame .ok [0, 1, 7, 0, 20, 0, 10, 6, 6, 2, 0, 0, 0, 0, 0, 0, 0, 0, 0, 0, 0, 0] := by decide +kernel

/-- The first origin event of 7.6 plans the pass with the extent 650 to 830. -/
theorem test_origin_plans_the_pass :
    let s := (onPort1 .queued id).modLink 0 fun l => { l with reserved := 1 }
    let t := originAtPlanner .forward 1 s
    (t.port 1).plan = [entry3] ∧ (t.link 0).reserved = 11 := by decide +kernel

/-- The count to 650 opens the pass and fires shot 0. -/
theorem test_window_entry_fires_shot_0 :
    let s := (onPort1 .planned id).modAngle fun a => { a with position := 649 }
    let t := after (.decodedCount .ahead false) s
    (t.port 1).trigger = true ∧ (t.port 1).exchange = some { exchangeOf shot3 .sending with sendTimer := .running 1600 }
      ∧ ((t.port 1).findPass 3).map Pass.state = some .opened := by decide +kernel

/-- The measured edges of the tables of R131. -/
theorem test_measured_edges :
    measuredEdge .forward 20 730 64 = 735 ∧ measuredEdge .reverse 200 3400 90 = 3330
      ∧ measuredEdge .reverse 200 3400 (-3) = 3402 := by decide

/-- The update of the first revolution of 7.6: error 25, correction 6. -/
theorem test_edge_update_of_the_manual :
    let x : Pass := { pass3 with observation := .held 4 730 64 }
    let t := consult 1 x (onPort1 .queued id)
    (t.plan.find 7).map Blade.correction = some 6
      ∧ (t.findPass 1 3).map Pass.lastEdge = some (some ⟨25, 6⟩) := by decide +kernel

/-! ### Chapters 5 and 6: trigger lines and head links -/

theorem test_pulse_end :
    let t := after (.trigPulseEnd 1) (port1 fun q => { q.drive with pulse := .running 0 })
    (t.port 1).trigger = false ∧ (t.port 1).pulse = .stopped
      ∧ after (.trigPulseEnd 1) (port1 Port.drive) = port1 Port.drive := by decide +kernel

/-- The return timer of six data bytes with RTO 16: 116 bit times of 40 periods. -/
theorem test_tag_frame_sent_starts_the_return_timer :
    ((after (.tagFrameSent 1) (port1 fun q => { q with exchange := some (exchangeOf shot3 .sending) })).port 1).exchange
      = some { exchangeOf shot3 .awaiting with timer := .running 4640 } := by decide +kernel

/-- A tag frame takes four bytes of ten bit times, 40 us (6.8): TAG_FRAME_SENT a period too soon does nothing. -/
theorem test_tag_frame_takes_its_bit_times :
    let ex := fun (left : Nat) => { exchangeOf shot3 .sending with sendTimer := .running left }
    let phase := fun (left : Nat) =>
      ((after (.tagFrameSent 1) (port1 fun q => { q with exchange := some (ex left) })).port 1).phase?
    phase 1 = some .sending ∧ phase 0 = some .awaiting ∧ (ex 0).frame.length * byteTime 1 640 = 1600
      ∧ byteTime 2 (16 * 4 + 15) = 54 := by decide +kernel

/-- A read-back error ends the exchange at the end of a byte, and not within one (R114). -/
theorem test_read_back_error_waits_for_the_end_of_its_byte :
    let ends := fun (left : Nat) =>
      ((after (.readBackError 1) (port1 fun q =>
        { q with exchange := some { exchangeOf shot3 .sending with sendTimer := .running left } })).port 1).exchange = none
    ends 1200 ∧ ends 800 ∧ ends 400 ∧ ends 0 ∧ ¬ ends 1600 ∧ ¬ ends 1199 ∧ ¬ ends 399 ∧ ¬ ends 1 := by decide +kernel

/-- The first byte 43 (SHOT, tag 3) at 1 us a bit, low where true: the start bit and its five 0 bits. -/
theorem test_line_level_while_sending :
    (List.range 10).map (fun j => sendsLow shot3.frame 1 640 (.running (1600 - (j * 40 + 39))))
      = [true, false, false, true, true, true, true, false, true, false] := by decide +kernel

/-- A bit time that ends while the part drives the line low raises the low run, whatever the head does (R121). -/
theorem test_own_low_bits_count :
    let s := port1 fun q =>
      { q with
        exchange := some { exchangeOf shot3 .sending with sendTimer := .running 1600 }, lowRun := 5, bitLeft := 16 }
    (s.port 1).drivesLow = true ∧ (((s.port 1).tick false).lowRun, ((s.port 1).tick true).lowRun) = (6, 6)
      ∧ (((s.port 1).tick false).exchange.map Exchange.sendTimer) = some (.running 1599) := by decide +kernel

/-- A fall that is high again half a bit time later is a glitch; the stop bit decides whether a byte is well formed. -/
theorem test_receiver_samples :
    Reception.ofSamples (samplesOf 79 fun _ => true) = .glitch
      ∧ Reception.ofSamples (samplesOf 79 (levelAt (byteLevels 0xA5 true) 79)) = .byte 0xA5 true
      ∧ Reception.ofSamples (samplesOf 79 (levelAt (byteLevels 0xA5 false) 79)) = .byte 0xA5 false := by decide +kernel

theorem test_read_back_error_is_a_bit_record :
    let t := after (.readBackError 1) (onPort1 .draining fun q => { q with exchange := some (exchangeOf shot3 .sending) })
    (t.port 1).exchange = none ∧ (t.port 1).linkErrors = 1 ∧ (t.port 1).consecutive = 1
      ∧ (t.link 0).records = [.shot (shotRecord 1 shot3 .bit [])] := by decide +kernel

theorem test_clean_return :
    let s := onPort1 .draining fun q => { q with exchange := some (exchangeOf shot3 .awaiting), consecutive := 2 }
    let data : List Byte := [1, 0, 0, 0, 0, 0]
    let t := after (.returnFrameReceived 1 (data ++ [headCheck 0 data])) s
    (t.port 1).consecutive = 0 ∧ (t.link 0).records = [.shot (shotRecord 1 shot3 .clean data)]
      ∧ (t.port 1).queue.map Pass.revsDone = [1] := by decide +kernel

theorem test_return_byte_without_a_stop_bit_outside_a_return_is_stray :
    ((after (.returnByteFrameError 1) scanning).port 1).linkErrors = 1 := by decide +kernel

theorem test_third_timeout_faults_the_port :
    let t := after (.returnTimeout 1)
      (onPort1 .draining fun q => { q with exchange := some (exchangeOf shot3 .awaiting), consecutive := 2 })
    (t.port 1).state = .fault ∧ (t.port 1).fault = .errors ∧ (t.link 0).flags.getLsbD 5 = true := by
  decide +kernel

theorem test_stray_byte_is_counted :
    ((after (.strayByte 1) (port1 fun q => { q with linkErrors := 255 })).port 1).linkErrors = 255 := by
  decide +kernel

theorem test_stuck_line :
    let t := after (.lineStuck 1) scanning
    (t.port 1).state = .fault ∧ (t.port 1).fault = .stuck ∧ (t.link 0).flags = 0x20 := by decide +kernel

/-- At DIVISOR 4 and FRACTION 15 the bit times end at the edges of R104: floor(79 j / 16) periods after the start. -/
theorem test_watched_bit_times_end_at_the_edges :
    let lefts := (List.range 20).map fun k => (List.range k).foldl (fun left _ => (passPeriod 79 left).1) 0
    (((List.range 20).zip lefts).filter fun x => (passPeriod 79 x.2).2).map (fun x => x.1 + 1) = [4, 9, 14, 19]
      ∧ [1, 2, 3, 4].map (bitEdge · 79) = [4, 9, 14, 19] := by decide +kernel

/-- The low run rises by 1 in a low bit time, returns to 0 in a high one, stands within a bit time, and is not kept on a
line that is not watched; at 64 the line is stuck. -/
theorem test_low_run_by_bit_times :
    let q := { Port.powerOn with state := .ready, lowRun := 3, bitLeft := 17 }
    (q.tick true).lowRun = 4 ∧ (q.tick true).bitLeft = 641 ∧ (q.tick false).lowRun = 0
      ∧ ({ q with bitLeft := 32 }.tick true).lowRun = 3 ∧ ({ q with bitLeft := 0 }.tick true).bitLeft = 624
      ∧ ({ q with lowRun := 63 }.tick true).lowRun = 64
      ∧ ({ q with lowRun := 63 }.tick true).isStuck = true ∧ ({ q with lowRun := 62 }.tick true).isStuck = false
      ∧ ({ q with state := .fault }.tick true).lowRun = 3 := by decide +kernel

/-- A port whose low run stands at 64 as the period passes is in FAULT after the step; another one is left watched. -/
theorem test_idle_step_faults_a_stuck_port :
    let t := tick ((port1 fun q => { q with lowRun := 64 }).modPort 2 fun q => { q with state := .ready, lowRun := 9 })
    (t.port 1).state = .fault ∧ (t.port 1).fault = .stuck ∧ (t.port 1).lowRun = 0 ∧ (t.link 0).flags = 0x20
      ∧ (t.port 2).state = .ready ∧ (t.port 2).lowRun = 9 := by decide +kernel

theorem test_well_formed_byte_ends_a_low_run :
    ((after (.returnFrameReceived 1 [0x55]) (port1 fun q => { q with lowRun := 9 })).port 1).lowRun = 0
      ∧ ((after (.lineStuck 1) (port1 fun q => { q with lowRun := 63 })).port 1).lowRun = 0 := by decide +kernel

theorem test_port_on_starts_a_wake :
    let t := after (.portOn 0 1) (port1 fun q => { q with state := .off })
    (t.port 1).state = .waking ∧ (t.port 1).wakePulse = .running 640 ∧ reply 0 t = replyFrame .ok [1] := by
  decide +kernel

theorem test_wake_pulse_end_starts_the_wake_timer :
    ((after (.wakePulseEnd 1) (port1 fun q => { q with state := .waking, wakePulse := .running 0 })).port 1).wake
      = .running 8000000 := by decide +kernel

theorem test_ready_return_makes_the_port_ready :
    ((after (.readyReturn 1 [9, 1, 0, headCheck 0 [1, 0]]) (port1 fun q => { q with state := .waking })).port 1).state
      = .ready := by decide +kernel

theorem test_wake_timeout_faults_the_port :
    let t := after (.wakeTimeout 1) (port1 fun q => { q with state := .waking, wake := .running 0 })
    (t.port 1).fault = .wakeTimeout ∧ (t.port 1).state = .fault := by decide +kernel

theorem test_port_off_of_a_busy_port :
    reply 0 (after (.portOff 0 1 0) (onPort1 .queued id)) = replyFrame .busy []
      ∧ ((after (.portOff 0 1 1) (onPort1 .queued id)).port 1).state = .off := by decide +kernel

theorem test_resume_outside_fault :
    reply 0 (after (.resumePort 0 1) scanning) = replyFrame .wrongState [] := by decide +kernel

theorem test_port_config_read_form :
    reply 2 (after (.setPortConfig 2 1 none) scanning) = replyFrame .ok [40, 0, 0, 1, 16, 3, 10, 200, 0] := by
  decide +kernel

theorem test_counters_are_cleared_by_the_read :
    let t := after (.readPortCounters 0 1) (port1 fun q => { q with linkErrors := 7, consecutive := 2, patternErrors := 258 })
    reply 0 t = replyFrame .ok [2, 0, 2, 7, 0, 2, 1, 0] ∧ (t.port 1).linkErrors = 0 ∧ (t.port 1).consecutive = 2 := by
  decide +kernel

/-! ### Chapter 10: tests -/

theorem test_start_of_a_shot_test :
    let t := after (.startTest 0 1 ⟨1, 100, 0, 6, 0⟩) scanning
    (t.port 1).state = .test ∧ reply 0 t = replyFrame .ok [3]
      ∧ (t.port 1).test = some { shotTest with mode := .shot 6 100 (.running 4000000) } := by decide +kernel

theorem test_start_of_a_sweep_without_lock :
    reply 0 (after (.startTest 0 1 ⟨2, 0, 4, 2, 2⟩) (scanning.modAngle fun a => { a with lock := .seeking }))
      = replyFrame .wrongState [] := by decide +kernel

theorem test_interval_expiry_fires :
    let t := after (.intervalTimerExpiry 1) (testing shotTest)
    (t.port 1).trigger = true ∧ (t.link 0).reserved = 1 ∧ (t.port 1).exchange.isSome = true := by decide +kernel

theorem test_interval_expiry_without_room :
    let t := after (.intervalTimerExpiry 1) ((testing shotTest).modLink 0 fun l => { l with reserved := 128 })
    (t.port 1).trigger = false ∧ (t.port 1).testSkips = 1 := by decide +kernel

theorem test_stop_of_a_shot_test :
    let t := after (.stopTest 0 1) (testing shotTest)
    (t.port 1).state = .ready ∧ (t.port 1).test = none ∧ (t.link 0).flags = 0x40 := by decide +kernel

theorem test_insert_error_outside_a_pattern_test :
    reply 0 (after (.insertError 0 1) (testing shotTest)) = replyFrame .wrongState [] := by decide +kernel

theorem test_insert_error :
    reply 0 (after (.insertError 0 1) (testing (patternTest (sent .internal)))) = replyFrame .ok [] := by
  decide +kernel

/-- The first sixteen bits: fifteen ones and a zero, sent as bytes FF and 7F. -/
theorem test_pattern_bytes :
    byteOfBits ((Pattern.start .internal []).sendBits 8).1 = 0xFF
      ∧ byteOfBits (((Pattern.start .internal []).sendBits 8).2.sendBits 8).1 = 0x7F := by decide +kernel

/-- At 4 periods a bit, an insertion in the middle of a byte inverts its next bit, and a second one is then accepted. -/
theorem test_insertion_inverts_the_next_bit_of_the_byte :
    let c : PortConfig := { PortConfig.powerOn with divisor := 4 }
    let pass := fun (n : Nat) (m : TestMode) => (List.range n).foldl (fun m _ => m.tick c) m
    let half := pass 19 (.pattern ((Pattern.start .internal []).send c 1))
    let sent := fun (m : TestMode) => match m with | .pattern pt => (pt.bits, pt.insert) | _ => ([], false)
    let ins := fun (m : TestMode) => match m with | .pattern pt => .pattern { pt with insert := true } | m => m
    sent half = ([true, true, true, true], false)
      ∧ sent (ins half) = ([true, true, true, true], true)
      ∧ sent (pass 1 (ins half)) = ([true, true, true, true, false], false)
      ∧ sent (pass 21 (ins half)) = ([true, true, true, true, false, true, true, true], false) := by decide +kernel

theorem test_pattern_byte_sent_waits_for_its_echo :
    let t := after (.patternByteSent 1) (testing (patternTest { sent .echo with phase := .byte }))
    ((t.port 1).patternIn .echo).map (fun r => r.2.echoTimer) = some (.running 800) := by decide +kernel

/-- With the INTERNAL loop the eight bits go to the checker and nothing is put on the line (R168). -/
theorem test_internal_byte_leaves_the_line :
    let t := after (.patternByteSent 1) (testing (patternTest (sent .internal)))
    ((t.port 1).patternIn .byte).map (fun r => (r.2.sending, r.2.filled)) = some ([], 8) := by decide +kernel

theorem test_echo_fills_the_checker :
    let t := after (.patternEchoReceived 1 0xFF) (testing (patternTest { sent .echo with phase := .echo }))
    ((t.port 1).patternIn .byte).map (fun r => (r.2.filled, r.2.register)) = some (8, 0xFF) := by decide +kernel

theorem test_missing_echo_counts_as_ones :
    let s := testing (patternTest { sent .echo with phase := .echo, echoTimer := .running 0 })
    after (.echoMissing 1) s = after (.patternEchoReceived 1 0xFF) s := by decide +kernel

/-- An echo shows the line high before its start bit and in its 1 bits: what is left of the low run came after them. -/
theorem test_echo_cuts_the_low_run :
    let run := fun (b : Byte) (old : Nat) =>
      ((after (.patternEchoReceived 1 b) ((testing (patternTest { sent .echo with phase := .echo })).modPort 1
        fun q => { q with lowRun := old })).port 1).lowRun
    run 0xFF 60 = 1 ∧ run 0x80 60 = 1 ∧ run 0x40 60 = 2 ∧ run 0x01 60 = 8 ∧ run 0x00 60 = 10 ∧ run 0x00 3 = 3
      ∧ run 0xFF 0 = 0 := by decide +kernel

theorem test_echo_on_sent_starts_the_stream :
    let t := after (.echoOnSent 1 true) (testing (patternTest (sent .echo)))
    ((t.port 1).patternIn .byte).isSome = true ∧ (t.port 1).linkErrors = 1 := by decide +kernel

theorem test_echo_off_sent_ends_the_test :
    let t := after (.echoOffSent 1 false) (testing (patternTest { sent .echo with phase := .echoOff }))
    (t.port 1).state = .ready ∧ (t.link 0).flags = 0x40 := by decide +kernel

theorem test_block_judged_clean_syncs :
    let t := after (.patternBlockJudged 1) (testing (patternTest { sent .internal with blockBits := 64 }))
    (t.port 1).checker = .synced ∧ (t.link 0).flags = 0x80 := by decide +kernel

/-! ### Chapters 8, 9 and 11: permit, claims, links -/

theorem test_interlock_qualifies :
    (after .intlkAsserted State.reset).permit
      = { PermitUnit.powerOn with qualification := .qualifying, timer := .running 20000000 } := by decide +kernel

theorem test_qualification_grants :
    let t := after .qualificationTimerExpiry (qualified (after .intlkAsserted State.reset))
    t.permit.permit = .permitted ∧ (t.link 1).flags = 0x08 := by decide +kernel

theorem test_interlock_loss_fails_the_open_pass :
    let t := after .intlkDeasserted (onPort1 .opened Port.drive)
    t.permit.permit = .notPermitted ∧ (t.port 1).trigger = false ∧ (t.port 1).queue = []
      ∧ (t.link 0).flags = 0x0B := by decide +kernel

theorem test_hold_withdraws_the_permit :
    reply 1 (after (.hold 1) scanning) = replyFrame .ok [2, 0, 2] := by decide +kernel

theorem test_unhold_restores_the_permit :
    let s := scanning.modPermit fun u => { u with hold := 2, permit := .notPermitted }
    reply 1 (after (.unhold 1) s) = replyFrame .ok [2, 1, 0] := by decide +kernel

theorem test_take_starts_a_handover :
    let t := after (.take 1 0) scanning
    t.claim 0 = .handover 0 1 80000000 ∧ reply 1 t = replyFrame .ok [2, 0, 1, 0xD0, 0x07]
      ∧ (t.link 0).flags = 0x10 := by decide +kernel

theorem test_claim_of_a_held_claim :
    reply 1 (after (.claim 1 0) scanning) = replyFrame .heldByOther [1, 0, 0xFF, 0, 0] := by decide +kernel

theorem test_release_and_decline_in_a_handover :
    let s := scanning.setClaim 2 (.handover 0 1 5)
    (after (.release 0 2) s).claim 2 = .held 1 ∧ (after (.decline 0 2) s).claim 2 = .held 0 := by decide +kernel

theorem test_handover_expiry :
    let t := after (.handoverExpiry 2) (scanning.setClaim 2 (.handover 0 1 0))
    t.claim 2 = .held 1 ∧ (t.link 0).flags = 0x10 ∧ (t.link 1).flags = 0x10 := by decide +kernel

theorem test_select_starts_a_transaction :
    ((after (.selectAsserted 1) State.reset).link 1).phase = .request
      ∧ ((after (.selectAsserted 1) (State.reset.modLink 1 fun l => { l with selectHeld := true })).link 1).phase
          = .idle := by decide +kernel

theorem test_deselect_counts_an_abandoned_request :
    ((after (.selectDeasserted 1 true) scanning).link 1).abandoned = 1
      ∧ ((after (.selectDeasserted 1 false) scanning).link 1).abandoned = 0 := by decide +kernel

theorem test_unknown_code_leaves_the_prefix :
    let t := after (.unknownRequestCode 1 0x54 []) (scanning.modLink 1 fun l => { l with repeats := some 2 })
    reply 1 t = replyFrame .unknown [] ∧ (t.link 1).repeats = some 2 := by decide +kernel

theorem test_bad_check_and_bad_length_replies :
    reply 1 (after (.requestBadCheck 1 0x53 [] 0) scanning) = replyFrame .badCheck []
      ∧ reply 1 (after (.requestBadLength 1 0x53 29 [0]) scanning) = replyFrame .badLength [] := by decide +kernel

theorem test_fetch_returns_the_oldest_record :
    let r := Record.shot (shotRecord 1 shot3 .clean [])
    let t := after (.fetch 0) (link0 fun l => { l with records := [r], reserved := 3 })
    reply 0 t = replyFrame .ok (r.bytes ++ [0, 3]) ∧ (t.link 0).records = [] := by decide +kernel

theorem test_notices_and_enables :
    let s := link0 fun l => { l with flags := 0x05 }
    let t := after (.setNoticeEnable 0 (some 0x04)) s
    (t.link 0).attention = true ∧ reply 0 t = replyFrame .ok [4, 5]
      ∧ ((after (.clearNotices 0 0x04) s).link 0).flags = 0x01 := by decide +kernel

theorem test_status_has_forty_bytes :
    let t := after (.readStatus 1) scanning
    (reply 1 t).length = 43 ∧ ((reply 1 t).drop 8).headD 0 = 0x02 ∧ ((reply 1 t).drop 9).headD 0 = 0x45 := by
  decide +kernel

theorem test_scan_reset_ends_the_pass :
    let t := after (.scanReset 0) (onPort1 .queued id)
    reply 0 t = replyFrame .ok [] ∧ (t.port 1).queue = [] ∧ t.plan.state = .active := by decide +kernel

theorem test_link_reset_removes_the_pass :
    let t := after (.linkReset 0) (onPort1 .planned id)
    (t.port 1).queue = [] ∧ (t.port 1).plan = [] ∧ (t.link 0).reserved = 0 ∧ (t.link 0).records = []
      ∧ t.claim 0 = .free := by decide +kernel

/-! ### Chapter 2: the blade table -/

theorem test_put_blade_inserts :
    let im : BladeImage := ⟨9, 100, 200, 0, 0, 1⟩
    let t := after (.putBlade 0 im) editing
    reply 0 t = replyFrame .ok [2, 0] ∧ t.plan.blades.map Blade.number = [9, 7] := by decide +kernel

theorem test_put_blade_present_number :
    reply 0 (after (.putBlade 0 ⟨7, 100, 200, 0, 0, 1⟩) editing) = replyFrame .duplicate [1, 0] := by decide +kernel

theorem test_drop_blade :
    reply 0 (after (.dropBlade 0 7) editing) = replyFrame .ok [0] := by decide +kernel

theorem test_read_blade :
    reply 2 (after (.readBlade 2 0 7) scanning)
      = replyFrame .ok [7, 0x8A, 2, 0, 0xAA, 5, 0, 0xC6, 2, 0, 1, 0, 0, 0, 0, 0, 0, 1] := by decide +kernel

theorem test_open_and_activate :
    reply 0 (after (.openPlan 0) scanning) = replyFrame .ok [0]
      ∧ reply 0 (after (.activatePlan 0) editing) = replyFrame .ok [1] := by decide +kernel

theorem test_open_with_a_live_pass :
    reply 0 (after (.openPlan 0) (onPort1 .queued id)) = replyFrame .busy [] := by decide +kernel

theorem test_angle_config_read_form :
    reply 2 (after (.setAngleConfig 2 none) scanning)
      = replyFrame .ok [0, 0, 1, 0, 0, 0, 0, 4, 3, 2, 16, 0xF4, 1, 0] := by decide +kernel

theorem test_change_of_sense_gives_the_lock_up :
    let t := after (.setAngleConfig 0 (some ⟨65536, 0, 4, 3, 2, 16, 500, 1⟩)) editing
    t.angle.lock = .noIndex ∧ t.angle.direction = .reverse ∧ (t.link 1).flags = 0x04 := by decide +kernel

theorem test_adapt_settings :
    reply 0 (after (.setAdapt 0 (some ⟨7, 1⟩)) scanning) = replyFrame .ok [7, 1]
      ∧ reply 0 (after (.setAdapt 0 (some ⟨8, 1⟩)) scanning) = replyFrame .range [2, 0] := by decide +kernel

theorem test_reset_correction_reports_the_old_one :
    let s := scanning.modPlan fun ps => { ps with blades := [{ blade7 with correction := -7 }] }
    reply 0 (after (.resetCorrection 0 0 7) s) = replyFrame .ok [0xF9, 0xFF] := by decide +kernel

theorem test_permit_config :
    reply 0 (after (.setPermitConfig 0 (some 2000)) scanning) = replyFrame .ok [0xD0, 7, 2, 1, 0]
      ∧ reply 0 (after (.setPermitConfig 0 (some 95)) scanning) = replyFrame .range [0xF4, 1, 2, 1, 0] := by
  decide +kernel

/-! ### States that meet the hypotheses of the statements

One theorem for each statement with hypotheses, named after it: each conjunct, or group of conjuncts, is the
hypotheses of one clause at one state. -/

theorem test_witness_StepTakesFrontCommand :
    ({ State.reset with pending := [.hold 0, .fetch 1] } : State).pending = [.hold 0, .fetch 1] := by decide

/-- Lines that are not watched, and watched lines inside a bit time and at its end. -/
theorem test_witness_IdleStepCountsTimers :
    State.reset.pending = [] ∧ (State.reset.port 0).state = .off
      ∧ (let q := (scanning.port 1)
         q.state = .ready ∧ q.bitLeft = 0 ∧ 16 ≤ (16 * q.cfg.divisor + q.cfg.fraction) - 16)
      ∧ (let q := ((port1 fun q => { q with bitLeft := 31, lowRun := 63 }).port 1)
         q.state = .ready ∧ q.bitLeft - 16 < 16)
      ∧ (let u := passTime (port1 fun q => { q with lowRun := 64 })
         (u.port 1).state = .ready ∧ 64 ≤ (u.port 1).lowRun ∧ ∀ r, r ≠ 1 → (u.port r).lowRun = 0) := by decide +kernel

/-- The premises of every StepKeeps statement hold together, in a state whose next step is a command. -/
theorem test_witness_StepKeeps :
    let s := { onPort1 .opened Port.drive with pending := [Instr.trigPulseEnd 1] }
    (s.linesDriven ∧ s.permitDecided ∧ s.darkUnlessPermitted ∧ s.claimsSound ∧ s.testsInTest ∧ s.tableSound
      ∧ s.passesSound ∧ s.queuesBounded ∧ s.plansSound ∧ s.stallFollows)
      ∧ (s.plansFollow ∧ s.spaceKept ∧ s.workFollows ∧ s.countsBounded ∧ s.testsInRange ∧ s.angleConfigInRange
        ∧ s.bytesFollow)
      ∧ step s = .next (after (.trigPulseEnd 1) { s with pending := [] }) :=
  ⟨by decide +kernel,
    ⟨by decide +kernel, by decide +kernel, by decide +kernel, by decide +kernel, by decide +kernel, by decide +kernel,
      by decide +kernel⟩, rfl⟩

/-- The premises about passes, plans and result space with work in flight: an OPEN pass with its exchange, a pending
outcome, and tests running. -/
theorem test_witness_StepKeeps_in_flight :
    (let s := onPort1 .opened fun q =>
       { q with exchange := some (exchangeOf shot3 .sending), plan := [{ entry3 with next := 1, fired := 1 }] }
     s.passesSound ∧ s.plansFollow ∧ s.spaceKept ∧ s.workFollows ∧ s.stallFollows)
    ∧ ((atLimit .sending).passesSound ∧ (atLimit .sending).workFollows)
    ∧ (let s := testing { shotTest with mode := .sweep 6 20 2 (.running .forward (some 650) 2) }
       s.testsInTest ∧ s.testsInRange)
    ∧ (testing (patternTest { sent .internal with bits := [true], sendTimer := .running 321 })).bytesFollow :=
  ⟨⟨by decide +kernel, by decide +kernel, by decide +kernel, by decide +kernel, by decide +kernel⟩,
    ⟨by decide +kernel, by decide +kernel⟩, ⟨by decide +kernel, by decide +kernel⟩, by decide +kernel⟩

theorem test_witness_EventsAndRequestsKeepTheRest :
    (eventPort (.strayByte 1) = some 1 ∧ exec (.strayByte 1) scanning = .next (after (.strayByte 1) scanning))
      ∧ exec .quadratureError scanning = .next (after .quadratureError scanning)
      ∧ requestOf (.fetch 1) = some (1, 0x50, []) ∧ exec (.fetch 1) scanning = .next (after (.fetch 1) scanning) :=
  ⟨⟨rfl, rfl⟩, rfl, rfl, rfl⟩

theorem test_witness_OneRequestInASelectPeriod :
    requestOf (.repeatNext 1 3) = some (1, 0x40, [3]) ∧ scanning.listens 1 ∧ (State.reset.link 1).phase = .idle
      ∧ (let l := (after (.fetch 1) scanning).link 1
         l.phase = .turnaround ∧ l.turnaround = 2 ∧ l.reply.length = 5 ∧ l.reply ≠ []) := by
  decide +kernel

theorem test_witness_BadFramesAreAnswered :
    scanning.listens 0 ∧ (Instr.unknownRequestCode 0 0x54 [1]).wf = true
      ∧ (Instr.requestBadCheck 0 0x54 [1] 0).wf = true ∧ (Instr.requestBadLength 0 0x50 255 [0]).wf = true := by
  decide +kernel

theorem test_witness_SelectStartsAndEndsATransaction :
    ((State.reset.link 1).phase = .idle ∧ (State.reset.link 1).selectHeld = false)
      ∧ ((State.reset.modLink 1 fun l => { l with selectHeld := true }).link 1).selectHeld = true := by decide

theorem test_witness_NumbersOutOfRangeAreRefused :
    scanning.listens 2 ∧ 5 ≤ (5 : Byte).toNat ∧ 4 ≤ (4 : Byte).toNat ∧ 64 ≤ (64 : Byte).toNat := by decide

theorem test_witness_ControlledRequestsNeedTheirClaim :
    scanning.listens 1 ∧ scanning.holdsPlan 1 = false ∧ scanning.controller 3 ≠ some 1
      ∧ State.reset.controller 0 ≠ some 0 := by decide

theorem test_witness_ClaimAndTakeByState :
    scanning.listens 1 ∧ (scanning.setClaim 4 .free).claim 4 = .free ∧ (scanning.setClaim 4 (.held 1)).claim 4 = .held 1
      ∧ ((0 : Master) ≠ 1 ∧ scanning.claim 4 = .held 0)
      ∧ (scanning.setClaim 4 (.handover 0 2 7)).claim 4 = .handover 0 2 7 := by decide

theorem test_witness_HandoverEndsByItsHolder :
    scanning.listens 0 ∧ scanning.listens 1 ∧ scanning.claim 0 = .held 0
      ∧ (scanning.setClaim 0 (.handover 0 1 7)).claim 0 = .handover 0 1 7
      ∧ (scanning.setClaim 0 (.handover 0 1 0)).claim 0 = .handover 0 1 0
      ∧ ∀ m n, (scanning.setClaim 0 (.handover 0 1 7)).claim 0 ≠ .handover m n 0
      ∧ (scanning.claim 0).holder? ≠ some 1 ∧ ((scanning.setClaim 0 .free).claim 0).holder? ≠ some 0 := by decide

theorem test_witness_PermitFollowsTheLineAndTheHolds :
    (State.reset.permitDecided ∧ State.reset.stallFollows ∧ State.reset.permit.qualification = .blocked)
      ∧ (let s := qualified (after .intlkAsserted State.reset)
         s.permitDecided ∧ s.stallFollows ∧ s.permit.qualification = .qualifying ∧ s.permit.timer = .running 0
          ∧ s.permit.hold = 0)
      ∧ (let s := (qualified (after .intlkAsserted State.reset)).modPermit fun u => { u with hold := 7 }
         s.permitDecided ∧ s.stallFollows ∧ s.permit.qualification = .qualifying ∧ s.permit.timer = .running 0
          ∧ s.permit.hold ≠ 0)
      ∧ (after .intlkAsserted State.reset).permit.timer ≠ .running 0
      ∧ (let s := scanning.modPermit fun u => { u with hold := 1, permit := .notPermitted }
         s.listens 0 ∧ s.permit.permit = .notPermitted ∧ s.permitDecided ∧ s.stallFollows
          ∧ s.permit.qualification = .lineOk ∧ s.permit.hold &&& ~~~(1#3 <<< (0 : Master).val) = 0)
      ∧ (scanning.listens 0 ∧ scanning.permit.permit = .permitted ∧ scanning.permitDecided)
      ∧ (let s := scanning.modPermit fun u => { u with hold := 3, permit := .notPermitted }
         s.listens 0 ∧ s.permit.permit = .notPermitted ∧ s.permitDecided ∧ s.stallFollows
          ∧ s.permit.hold &&& ~~~(1#3 <<< (0 : Master).val) ≠ 0)
      ∧ (let s := scanning.modPermit fun u => { u with qualification := .blocked, permit := .notPermitted }
         s.listens 0 ∧ s.permit.permit = .notPermitted ∧ s.permitDecided ∧ s.stallFollows
          ∧ s.permit.qualification ≠ .lineOk) := by decide +kernel

/-- An OPEN pass with its exchange in flight, a PLANNED one and a QUEUED one. -/
theorem test_witness_PermitLossDarkensTheHeads :
    threePasses.permit.permit = .permitted ∧ threePasses.permitDecided ∧ threePasses.passesSound ∧ threePasses.listens 2
      ∧ (threePasses.port 1).queue.map Pass.onTable = [true, true, false] := by decide +kernel

/-- An insertion with the widest window, a replacement with the mark at the start, and each refusal in turn. -/
theorem test_witness_BladesArePutAndDropped :
    (editing.listens 0 ∧ editing.holdsPlan 0 = true ∧ editing.plan.state = .edit)
      ∧ (let im : BladeImage := ⟨9, 1, 65535, 0, 0, 0⟩
         1 ≤ im.start.toNat ∧ im.start.toNat ≤ editing.angle.cfg.cpr - 2 ∧ im.start.toNat < im.close.toNat
          ∧ im.close.toNat ≤ editing.angle.cfg.cpr - 1 ∧ im.options.getLsbD 0 = false ∧ im.tracking.toNat ≤ 1
          ∧ im.options.getLsbD 2 = false ∧ editing.plan.find im.number = none ∧ editing.plan.blades.length < 128)
      ∧ (let im : BladeImage := ⟨7, 65534, 65535, 65534, 0x1D, 1⟩
         1 ≤ im.start.toNat ∧ im.start.toNat ≤ editing.angle.cfg.cpr - 2 ∧ im.start.toNat < im.close.toNat
          ∧ im.close.toNat ≤ editing.angle.cfg.cpr - 1
          ∧ (im.options.getLsbD 0 = true ∧ im.start.toNat ≤ im.mark.toNat ∧ im.mark.toNat ≤ im.close.toNat)
          ∧ im.tracking.toNat ≤ 1 ∧ im.options.getLsbD 2 = true
          ∧ editing.plan.find im.number = some blade7)
      ∧ (scanning.listens 0 ∧ scanning.holdsPlan 0 = true ∧ scanning.plan.state ≠ .edit)
      ∧ (⟨9, 0, 5, 0, 0, 0⟩ : BladeImage).start.toNat < 1 ∧ 65536 - 2 < (⟨9, 65535, 5, 0, 0, 0⟩ : BladeImage).start.toNat
      ∧ (⟨9, 5, 5, 0, 0, 0⟩ : BladeImage).close.toNat ≤ (⟨9, 5, 5, 0, 0, 0⟩ : BladeImage).start.toNat
      ∧ 1 < (⟨9, 5, 6, 0, 0, 2⟩ : BladeImage).tracking.toNat
      ∧ (⟨9, 5, 6, 4, 1, 0⟩ : BladeImage).mark.toNat < (⟨9, 5, 6, 4, 1, 0⟩ : BladeImage).start.toNat
      ∧ (readBladeImage editing.angle.cfg.cpr ⟨7, 5, 6, 4, 0, 0⟩).isSome = true
      ∧ (editing.plan.find 7).isSome = true ∧ editing.plan.find 9 = none
      ∧ 128 ≤ (editing.modPlan fun ps => { ps with blades := List.replicate 128 blade7 }).plan.blades.length
      ∧ (∀ x ∈ editing.plan.blades, x.number ≠ 9) ∧ (∃ x ∈ editing.plan.blades, x.number = 7) := by decide +kernel

theorem test_witness_ReadBladeReturnsTheEntry :
    (scanning.listens 0 ∧ (scanning.plan.blades.map Blade.number).Nodup)
      ∧ (scanning.plan.blades[0]? = some blade7 ∧ blade7.number = 7) ∧ (∀ x ∈ scanning.plan.blades, x.number ≠ 9)
      ∧ (0 : Byte).toNat ≤ 127 ∧ ((127 : Byte).toNat ≤ 127 ∧ scanning.plan.blades.length ≤ (127 : Byte).toNat)
      ∧ 128 ≤ (128 : Byte).toNat ∧ 2 ≤ (2 : Byte).toNat := by decide +kernel

theorem test_witness_PlanStateAndSettings :
    (editing.listens 0 ∧ editing.holdsPlan 0 = true ∧ editing.plan.state = .edit ∧ editing.plan.blades ≠ [])
      ∧ (editing.modPlan fun ps => { ps with blades := [] }).plan.blades = []
      ∧ (scanning.plan.state = .active ∧ scanning.livePasses = []) ∧ (onPort1 .queued id).livePasses ≠ []
      ∧ (scanning.listens 0 ∧ scanning.holdsPlan 0 = true)
      ∧ (100 ≤ (2000 : Half).toNat ∧ (2000 : Half).toNat ≤ 2000 ∧ (2000 : Half).toNat % 10 = 0)
      ∧ (99 : Half).toNat < 100 ∧ 2000 < (2001 : Half).toNat ∧ (105 : Half).toNat % 10 ≠ 0
      ∧ ((7 : Byte).toNat ≤ 7 ∧ (1 : Byte).toNat ≤ 1) ∧ 7 < (8 : Byte).toNat ∧ 1 < (2 : Byte).toNat
      ∧ scanning.plan.find 7 = some blade7 ∧ scanning.plan.find 9 = none := by decide +kernel

theorem test_witness_AngleConfigIsCheckedAndWritten :
    (scanning.listens 0 ∧ scanning.holdsPlan 0 = true ∧ scanning.plan.state ≠ .edit)
      ∧ (editing.listens 0 ∧ editing.holdsPlan 0 = true ∧ editing.plan.state = .edit ∧ editing.livePasses = []
        ∧ editing.stallFollows ∧ editing.angle.lock = .locked)
      ∧ (4095 : BitVec 32).toNat < 4096 ∧ 16777216 < (16777217 : BitVec 32).toNat
      ∧ (let a : AngleParams := ⟨4096, 4095, 63, 8, 8, 1, 2550, 1⟩
         (readAngleParams a).isSome = true ∧ a.cpr.toNat ≠ editing.angle.cfg.cpr ∧ editing.plan.blades ≠ [])
      ∧ readAngleParams ⟨65536, 0, 4, 3, 2, 16, 500, 0⟩ = some editing.angle.cfg
      ∧ readAngleParams ⟨65536, 65535, 4, 3, 2, 16, 500, 0⟩ = some { editing.angle.cfg with zeroOffset := 65535 }
      ∧ readAngleParams ⟨65536, 0, 4, 3, 2, 16, 500, 1⟩ = some { editing.angle.cfg with sense := .inverted }
      ∧ (editing.modAngle fun a => { a with lock := .noIndex }).angle.lock = .noIndex := by decide +kernel

theorem test_witness_CountMovesAndCrossesTheOrigin :
    (let s := scanning.modAngle fun a => { a with reverseRun := 15 }
     countDirection s.angle.cfg.sense .back ≠ s.angle.direction ∧ s.angle.cfg.revHyst ≤ s.angle.reverseRun + 1)
      ∧ (countDirection scanning.angle.cfg.sense .back ≠ scanning.angle.direction
          ∧ scanning.angle.reverseRun + 1 < scanning.angle.cfg.revHyst)
      ∧ (let s := scanning.modAngle fun a => { a with position := -1, originArmed := true }
         s.angle.lock = .locked ∧ s.angle.originArmed = true ∧ countDirection s.angle.cfg.sense .ahead = s.angle.direction
          ∧ s.angle.value = s.angle.cfg.cpr - 1
          ∧ ((s.angle.count .ahead).track .forward).value = 0)
      ∧ (after (.decodedCount .ahead false) State.reset).angle.lock = .noIndex
      ∧ ((after (.decodedCount .ahead false) scanning).angle.lock ≠ .noIndex ∧ 0 < scanning.angle.cfg.cpr) := by
  decide +kernel

theorem test_witness_DecodedCountReachesThePorts :
    (let s := (onPort1 .opened id).modAngle fun a => { a with reverseRun := 15 }
     countDirection s.angle.cfg.sense .back ≠ s.angle.direction ∧ s.angle.cfg.revHyst ≤ s.angle.reverseRun + 1)
      ∧ (countDirection scanning.angle.cfg.sense .ahead = scanning.angle.direction
          ∧ scanning.angle.decoder.move .ahead ≠ .ll
          ∧ ((scanning.angle.count .ahead).track .forward).travel.natAbs
              ≤ scanning.angle.cfg.cpr + scanning.angle.cfg.idxTol)
      ∧ (let s := (onPort1 .queued id).modAngle fun a => { a with position := -1, originArmed := true }
         s.angle.lock = .locked ∧ s.angle.originArmed = true ∧ s.angle.value = s.angle.cfg.cpr - 1
          ∧ ((s.angle.count .ahead).track .forward).value = 0) := by decide +kernel

/-- An index event at a position, the decoder one place behind (0,0). -/
def atIndex (lock : LockState) (position : Int) (good : Nat) : State :=
  scanning.modAngle fun a => { a with decoder := .lh, lock := lock, position := position, goodCount := good }

theorem test_witness_IndexWhileNotLocked :
    (atIndex .noIndex 9 0).angle.decoder.move .ahead = .ll ∧ (atIndex .noIndex 9 0).angle.lock = .noIndex
      ∧ ((atIndex .seeking 3 0).angle.count .ahead).travel.natAbs ≤ 4
      ∧ (let u := (atIndex .seeking 65539 2).angle.count .ahead
         ¬ u.travel.natAbs ≤ 4 ∧ (u.travel.natAbs - (65536 : Int)).natAbs ≤ 4 ∧ u.cfg.lockRevs ≤ u.goodCount + 1)
      ∧ (let u := (atIndex .seeking (-65533) 0).angle.count .ahead
         ¬ u.travel.natAbs ≤ 4 ∧ (u.travel.natAbs - (65536 : Int)).natAbs ≤ 4 ∧ u.goodCount + 1 < u.cfg.lockRevs)
      ∧ (let u := (atIndex .seeking 4 0).angle.count .ahead
         ¬ u.travel.natAbs ≤ 4 ∧ ¬ (u.travel.natAbs - (65536 : Int)).natAbs ≤ 4) := by decide +kernel

theorem test_witness_IndexWhileLocked :
    (atIndex .locked 3 0).angle.decoder.move .ahead = .ll ∧ (atIndex .locked 3 0).angle.lock = .locked
      ∧ ((atIndex .locked 3 0).angle.count .ahead).travel.natAbs ≤ 4
      ∧ (let u := (atIndex .locked 65539 0).angle.count .ahead
         ¬ u.travel.natAbs ≤ 4 ∧ (u.travel.natAbs - (65536 : Int)).natAbs ≤ 4)
      ∧ (let s := (atIndex .locked 4 0).modAngle fun a => { a with slipWindow := [.slip] ++ List.replicate 15 .good }
         let u := s.angle.count .ahead
         (¬ u.travel.natAbs ≤ 4 ∧ ¬ (u.travel.natAbs - (65536 : Int)).natAbs ≤ 4)
          ∧ (s.angle.slipWindow.tail ++ [IndexOutcome.slip]).count .slip < s.angle.cfg.slipLimit)
      ∧ (let s := (onPort1 .planned id).modAngle fun a =>
           { a with decoder := .lh, position := 4, slipWindow := [.slip] }
         let reached := atPorts (countAt .forward)
           (originTest .forward s.angle.value (trackDirection .forward (s.modAngle (·.count .ahead))))
         let retaken := reached.modAngle fun a =>
           { a with reference := a.position, slipWindow := [.slip, .slip], suspect := false }
         let slipped := atPorts (slipAt (retaken.angle.value != reached.angle.value)) retaken
         s.passesSound ∧ ¬ (s.angle.count .ahead).travel.natAbs ≤ 4
          ∧ s.angle.cfg.slipLimit ≤ (s.angle.slipWindow ++ [IndexOutcome.slip]).count .slip
          ∧ ∃ x ∈ (slipped.port 1).queue, x.onTable = true) := by decide +kernel

theorem test_witness_MissedIndexAdvancesTheReference :
    (let s := atIndex .seeking 65540 1
     s.angle.lock = .seeking ∧ s.angle.cfg.cpr + s.angle.cfg.idxTol < (s.angle.count .ahead).travel.natAbs)
      ∧ (let s := atIndex .locked (-65542) 1
         s.angle.lock = .locked ∧ s.angle.cfg.cpr + s.angle.cfg.idxTol < (s.angle.count .ahead).travel.natAbs
          ∧ (s.angle.slipWindow ++ [IndexOutcome.slip]).count .slip < s.angle.cfg.slipLimit)
      ∧ (let s := (onPort1 .planned id).modAngle fun a => { a with position := 65540, slipWindow := [.slip] }
         let slipped := atPorts (slipAt false) (atPorts (countAt .forward)
           (originTest .forward s.angle.value (trackDirection .forward (s.modAngle (·.count .ahead)))))
         s.passesSound ∧ s.angle.cfg.cpr + s.angle.cfg.idxTol < (s.angle.count .ahead).travel.natAbs
          ∧ s.angle.cfg.slipLimit ≤ (s.angle.slipWindow ++ [IndexOutcome.slip]).count .slip
          ∧ ∃ x ∈ (slipped.port 1).queue, x.onTable = true) := by
  decide +kernel

theorem test_witness_QuadratureErrorIsNoCount :
    State.reset.angle.lock = .noIndex ∧ (atIndex .seeking 0 2).angle.lock = .seeking
      ∧ (scanning.angle.lock = .locked ∧ [IndexOutcome.slip].count .slip < scanning.angle.cfg.slipLimit)
      ∧ (let s := threePasses.modAngle fun a => { a with slipWindow := [.slip] }
         s.passesSound ∧ s.angle.cfg.slipLimit ≤ (s.angle.slipWindow ++ [IndexOutcome.slip]).count .slip
          ∧ ∃ x ∈ (s.port 1).queue, x.onTable = true) := by decide +kernel

theorem test_witness_StallFailsThePassesOnTheTable :
    threePasses.angle.stall ≠ .running 0 ∧ (stalled threePasses).angle.stall = .running 0
      ∧ (stalled threePasses).passesSound ∧ threePasses.angleConfigInRange
      ∧ (threePasses.port 1).queue.map Pass.onTable = [true, true, false] := by decide +kernel

theorem test_witness_SubmissionIsCheckedThenAdmitted :
    scanning.listens 1 ∧ (1 ≤ (16 : Byte).toNat ∧ (16 : Byte).toNat ≤ 16) ∧ (0 : Byte).toNat < 1
      ∧ 16 < (17 : Byte).toNat
      ∧ (let r : SubmitParams := ⟨3, 7, 1, 65535, 120, 8, 7⟩
         (r.port.toNat ≤ 3 ∧ r.direction.toNat ≤ 1 ∧ 1 ≤ r.step.toNat ∧ r.limit.toNat ≤ 120 ∧ r.len.toNat = 8)
          ∧ r.port = byteOf (3 : PortId).val)
      ∧ ¬ (4 : Byte).toNat ≤ 3 ∧ editing.plan.state ≠ .active ∧ (State.reset.port 3).state ≠ .ready
      ∧ (scanning.plan.state = .active ∧ (scanning.port 3).state = .ready)
      ∧ scanning.plan.find 8 = none ∧ scanning.plan.find 7 = some blade7 ∧ blade7.excluded = false
      ∧ (4 < 6 ∧ 120 < (blade7.close - blade7.start) / 5 + 1 ∧ (blade7.close - blade7.start) / 8 + 1 ≤ 120)
      ∧ 16 ≤ ((port1 fun q => { q with queue := List.replicate 16 pass3 }).port 1).queue.length
      ∧ 128 ≤ ((link0 fun l => { l with reserved := 128 }).link 0).records.length
          + ((link0 fun l => { l with reserved := 128 }).link 0).reserved
      ∧ ((∀ x ∈ (onPort1 .queued id).livePasses, x.tag ≠ 0)
          ∧ ∀ u : Tag, u < 0 → ∃ x ∈ (onPort1 .queued id).livePasses, x.tag = u) := by decide +kernel

/-- The premises of an abort of pass 3 of port 1 that acts. -/
def aborts (s : State) : Bool :=
  decide (s.listens 0) && decide s.passesSound && decide (s.port 1).workFollows && decide (s.port 1).planFollows
    && decide (∀ r, r ≠ 1 → s.findPass r 3 = none)

/-- The pass in a state, its first shot pending behind the exchange of a DRAINING pass. -/
def behindAnother (st : PassState) (q : Port) : Port :=
  { q with
    exchange := some (exchangeOf { shot3 with tag := 4 } .sending), slot := some shot3
    queue := [{ pass3 with state := st }, { pass3 with tag := 4, state := .draining }] }

/-- A QUEUED and a PLANNED pass; an OPEN one with no exchange of its own, with its exchange in flight, and with its shot
pending behind another pass's exchange; a DRAINING one behind such an exchange; and one with its outcome pending. -/
theorem test_witness_AbortByPassState :
    (let s := onPort1 .queued id
     s.listens 0 ∧ (∀ x ∈ s.livePasses, x.tag ≠ 4) ∧ s.findPass 1 3 = some pass3
      ∧ (∀ r, r ≠ 1 → s.findPass r 3 = none) ∧ pass3.owner ≠ 1 ∧ pass3.owner = 0 ∧ pass3.pendingOutcome = none)
    ∧ (aborts (onPort1 .queued id) = true ∧ aborts (onPort1 .planned id) = true
      ∧ ((onPort1 .planned id).port 1).findEntry 3 = some entry3 ∧ ((onPort1 .queued id).port 1).findEntry 3 = none)
    ∧ (let s := onPort1 .opened fun q => { q with plan := [{ entry3 with next := 2, fired := 1 }] }
       aborts s = true ∧ (s.port 1).inFlight 3 = false ∧ (s.port 1).isPending 3 = false)
    ∧ (let s := onPort1 .opened fun q => { q with exchange := some (exchangeOf shot3 .sending) }
       aborts s = true ∧ s.findPass 1 3 = some { pass3 with state := .opened } ∧ (s.port 1).inFlight 3 = true)
    ∧ (let s := onPort1 .opened (behindAnother .opened)
       aborts s = true ∧ (s.port 1).slot = some shot3 ∧ shot3.isOf 3 = true ∧ (s.port 1).inFlight 3 = false)
    ∧ (let s := onPort1 .draining (behindAnother .draining)
       aborts s = true ∧ (s.port 1).slot = some shot3 ∧ (s.port 1).inFlight 3 = false)
    ∧ (let x : Pass := { pass3 with state := .draining, pendingOutcome := some .aborted }
       let s := port1 fun q => { q with queue := [x] }
       s.listens 0 ∧ s.findPass 1 3 = some x ∧ (∀ r, r ≠ 1 → s.findPass r 3 = none)
        ∧ x.pendingOutcome ≠ none ∧ (s.port 1).isPending 3 = false ∧ s.stallFollows) := by decide +kernel

/-- The return with the gate closed; and the choice at the last room and at each check: the window at both ends of its
range, a full plan, a shared extent, a full result queue. -/
theorem test_witness_PlannerReturnsChecksAndChooses :
    (let s := (onPort1 .planned id).modPermit fun u => { u with permit := .notPermitted }
     (∀ x ∈ (s.port 1).queue, x.state = .planned → ∃ e ∈ (s.port 1).plan, e.tag = x.tag)
      ∧ (∀ e ∈ (s.port 1).plan, ∃ x ∈ (s.port 1).queue, x.tag = e.tag ∧ x.state = .planned)
      ∧ ((s.port 1).queue.map Pass.tag).Nodup ∧ s.permit.permit = .notPermitted
      ∧ (s.findPass 1 3).map Pass.state = some .planned ∧ (s.port 1).findEntry 3 = some entry3)
    ∧ (let s := (onPort1 .queued id).modLink 0 fun l => { l with reserved := 118 }
       ((s.port 1).state = .ready ∧ s.permit.permit = .permitted ∧ s.plan.state = .active)
        ∧ s.findPass 1 3 = some pass3 ∧ pass3.state = .queued ∧ pass3.dir = .forward ∧ pass3.pendingOutcome = none
        ∧ s.plan.find pass3.blade = some blade7
        ∧ (1 ≤ blade7.start + blade7.correction ∧ blade7.close + blade7.correction ≤ (s.angle.cfg.cpr : Int) - 1)
        ∧ (s.port 1).plan.length < 8 ∧ (∀ f ∈ (s.port 1).plan, 830 < f.first ∨ f.last < 650)
        ∧ (s.link 0).records.length + (s.link 0).reserved + pass3.n ≤ 128
        ∧ ¬ (s.link 0).records.length + (s.link 0).reserved + (pass3.n + 1) ≤ 128)
    ∧ ¬ 1 ≤ ({ blade7 with correction := -650 } : Blade).start + (-650 : Int)
    ∧ ¬ ({ blade7 with close := 65535 } : Blade).close + (1 : Int) ≤ (65536 : Int) - 1
    ∧ (let s := onPort1 .queued fun q => { q with plan := List.replicate 8 entry3 }
       ¬ (s.port 1).plan.length < 8 ∧ ¬ ∀ f ∈ (s.port 1).plan, 830 < f.first ∨ f.last < 650) := by decide +kernel

/-- Each way of a shot: the next shot of an OPEN pass, the opening of a PLANNED one, the last shot, and the counts at
which nothing fires; behind a free line, an exchange, and an exchange with its pending slot full. -/
theorem test_witness_PassOpensFiresAndCloses :
    (let s := (onPort1 .opened id).modAngle fun a => { a with position := 650 }
     let x : Pass := { pass3 with state := .opened }
     (s.permit.permit = .permitted ∧ s.angle.direction = .forward ∧ ((s.port 1).queue.map Pass.tag).Nodup
      ∧ (s.port 1).openEntry = some entry3 ∧ (s.port 1).findEntry 3 = some entry3 ∧ s.findPass 1 3 = some x
      ∧ x.pendingOutcome = none ∧ entry3.next + 1 < entry3.n ∧ s.angle.value = entry3.first + entry3.next * entry3.step
      ∧ (s.port 1).exchange = none)
      ∧ (s.modAngle fun a => { a with position := 651 }).angle.value ≠ entry3.first + entry3.next * entry3.step)
    ∧ (let s := (onPort1 .planned fun q => { q with exchange := some (exchangeOf shot3 .awaiting) }).modAngle fun a =>
         { a with position := 650 }
       (s.port 1).openEntry = none ∧ (s.findPass 1 3).map Pass.state = some .planned ∧ entry3.next = 0
        ∧ (∀ f ∈ (s.port 1).plan, f.dir = .forward → s.angle.value = f.first + 0 * f.step → f = entry3)
        ∧ (s.port 1).exchange ≠ none ∧ (s.port 1).slot = none
        ∧ ∀ e ∈ (s.port 1).plan, (s.port 1).entryIn .planned e = true → (649 : Nat) ≠ e.first)
    ∧ (let e : PlanEntry := { entry3 with next := 9, fired := 9 }
       let s := (onPort1 .opened fun q => { q with
           plan := [e], exchange := some (exchangeOf shot3 .awaiting), slot := some shot3 }).modAngle fun a =>
         { a with position := 830 }
       (s.port 1).openEntry = some e ∧ e.next + 1 = e.n ∧ s.angle.value = e.first + e.next * e.step
        ∧ (s.port 1).exchange ≠ none ∧ (s.port 1).slot ≠ none ∧ (s.port 1).outstanding e.tag = true)
    ∧ (let e : PlanEntry := { entry3 with next := 9, fired := 9 }
       let other : Shot := { shot3 with tag := 5 }
       let s := (onPort1 .opened fun q => { q with
           plan := [e], exchange := some (exchangeOf other .awaiting), slot := some other }).modAngle fun a =>
         { a with position := 830 }
       (s.port 1).openEntry = some e ∧ e.next + 1 = e.n ∧ (s.port 1).outstanding e.tag = false)
    ∧ scanning.angle.direction ≠ .reverse ∧ State.reset.permit.permit = .notPermitted := by
  decide +kernel

/-- A jump that lands on an OPEN pass, before and past its last shot, and one that lands in a PLANNED pass's extent. -/
theorem test_witness_SlipsAndReversalsAtTheTriggerUnit :
    (let behind := fun (landing k : Nat) => entry3.last = entry3.first + (entry3.n - 1) * entry3.step ∧ 1 ≤ entry3.step
       ∧ k ≤ entry3.n ∧ ∀ j, j < 10 → (j < k ↔ entry3.first + j * entry3.step ≤ landing)
     behind 649 0 ∧ behind 650 1 ∧ behind 830 10 ∧ behind 65535 10 ∧ max entry3.next 10 = entry3.n)
    ∧ (let q := (onPort1 .opened id).port 1
       q.openEntry = some entry3 ∧ q.findEntry entry3.tag = some entry3 ∧ q.openEntry ≠ none)
    ∧ (let s := (onPort1 .planned id).modAngle fun a => { a with position := 660 }
       let q := s.port 1
       q.openEntry = none ∧ q.findEntry entry3.tag = some entry3 ∧ q.plan = [entry3] ∧ q.entryIn .planned entry3 = true
        ∧ entry3.dir = s.angle.direction ∧ entry3.first ≤ s.angle.value ∧ s.angle.value ≤ entry3.last
        ∧ ¬ (831 : Nat) ≤ entry3.last) := by decide +kernel

theorem test_witness_RevolutionEndRequeuesOrEnds :
    (let s := onPort1 .opened id
     let x : Pass := { pass3 with state := .opened }
     s.findPass 1 3 = some x ∧ ((s.port 1).queue.map Pass.tag).Nodup ∧ x.pendingOutcome = none
      ∧ (s.port 1).findEntry x.tag = some entry3 ∧ x.state ≠ .draining ∧ (s.port 1).outstanding x.tag = false)
    ∧ (let s := onPort1 .draining id
       let x : Pass := { pass3 with state := .draining }
       s.findPass 1 3 = some x ∧ x.state = .draining ∧ (s.port 1).outstanding x.tag = false ∧ x.pendingOutcome = none)
    ∧ (let x : Pass := { pass3 with state := .draining, pendingOutcome := some .aborted }
       let s := onPort1 .draining fun q => { q with queue := [x] }
       s.findPass 1 3 = some x ∧ (s.port 1).outstanding x.tag = false ∧ x.pendingOutcome = some .aborted)
    ∧ (let x : Pass := { pass3 with state := .draining, edge := false, observation := .absent }
       let ex := exchangeOf shot3 .sending
       let s := onPort1 .draining fun q =>
         { q with queue := [x], exchange := some ex, cfg := { q.cfg with errLimit := 0 } }
       s.findPass 1 3 = some x ∧ (s.port 1).exchange = some ex ∧ ex.phase = .sending ∧ ex.shot.isOf x.tag = true
        ∧ 0 < ex.frame.length ∧ ex.sendTimer = .running (0 * ((9 + ex.stopBits) * ex.bitTime / 16))
        ∧ (s.port 1).slot = none ∧ (s.port 1).cfg.errLimit = 0 ∧ x.edge = false ∧ x.pendingOutcome = none)
    ∧ (pass3.revsDone + 1 < pass3.repeats ∧ { pass3 with revsDone := 1 }.repeats ≤ { pass3 with revsDone := 1 }.revsDone + 1)
    := by decide +kernel

theorem test_witness_EdgeUpdateMovesTheCorrection :
    (let x : Pass := { pass3 with observation := .held 4 730 64 }
     scanning.plan.find x.blade = some blade7 ∧ blade7.tracking = .track ∧ scanning.plan.frozen = false
      ∧ scanning.plan.state = .active ∧ x.marks.slipped = false ∧ x.marks.reversed = false
      ∧ x.observation = .held 4 730 64 ∧ blade7.mark = some 710)
    ∧ pass3.observation = .empty ∧ editing.plan.state ≠ .active
    ∧ { pass3 with marks := ⟨true, false, false⟩ }.marks.reversed ≠ false := by decide +kernel

theorem test_witness_PulseStrayAndFrameEvents :
    ((port1 fun q => { q with pulse := .running 0 }).port 1).pulse = .running 0
      ∧ ((port1 Port.drive).port 1).pulse ≠ .running 0
      ∧ ((scanning.port 1).state = .ready ∧ (scanning.port 1).exchange = none ∧ (scanning.port 1).test = none)
      ∧ (let y := patternTest (sent .internal)
         ((testing y).port 1).test = some y ∧ y.mode.fires = false)
      ∧ (let s := port1 fun q => { q with exchange := some (exchangeOf shot3 .sending) }
         (s.port 1).exchange = some (exchangeOf shot3 .sending) ∧ (exchangeOf shot3 .sending).sendTimer = .running 0
          ∧ (exchangeOf shot3 .awaiting).phase ≠ .sending ∧ (s.port 1).wakePulse = .stopped ∧ (s.port 1).test = none)
      ∧ (([1, 2] : List Byte)[1]? = some 2 ∧ (10 : Nat) < 9 + 2 ∧ 10 * 79 / 16 ≤ 49 ∧ 49 < (10 + 1) * 79 / 16)
      ∧ ((fun _ : Nat => true) (79 / 32) = true ∧ levelAt (byteLevels 0 true) 79 (79 / 32) = false)
      ∧ 64 ≤ 64 := by decide +kernel

theorem test_witness_ErroredExchangeIsRecorded :
    (let s := onPort1 .draining fun q => { q with exchange := some (exchangeOf shot3 .sending), linkErrors := 255 }
     (s.port 1).exchange = some (exchangeOf shot3 .sending) ∧ (s.port 1).linkErrors ≤ 255
      ∧ (s.port 1).consecutive ≤ 255 ∧ shot3.orphan = false
      ∧ 3 < shot3.frame.length ∧ (exchangeOf shot3 .sending).sendTimer = .running (0 * ((9 + 1) * 640 / 16)))
    ∧ (exchangeOf shot3 .sending).sendTimer ≠ .running 1
    ∧ (let ex := exchangeOf { shot3 with orphan := true } .awaiting
       let s := port1 fun q => { q with exchange := some ex, cfg := { q.cfg with errLimit := 0 }, consecutive := 255 }
       (s.port 1).exchange = some ex ∧ ex.phase = .awaiting ∧ ex.timer = .running 0 ∧ ex.shot.orphan = true
        ∧ (exchangeOf shot3 .sending).phase ≠ .awaiting ∧ (s.port 1).cfg.errLimit = 0
        ∧ (s.port 1).linkErrors ≤ 255 ∧ (s.port 1).consecutive ≤ 255)
    ∧ (let s := atLimit .awaiting
       s.passesSound ∧ (s.port 1).outcomesWait ∧ (s.port 1).exchange = some (exchangeOf shot3 .awaiting)
        ∧ (s.port 1).state ≠ .fault ∧ ((after (.returnTimeout 1) s).port 1).state = .fault) := by decide +kernel

/-- A return awaited for a DRAINING pass, for an OPEN one, and one whose CRC ending faults the port. -/
theorem test_witness_ReturnIsCheckedAndRecorded :
    let ex := exchangeOf shot3 .awaiting
    let bytes : List Byte := [3, 0, 0, 0, 0, 0]
    let awaited := fun (s : State) => (s.port 1).state = .ready ∧ (s.port 1).exchange = some ex
      ∧ (s.port 1).linkErrors ≤ 255 ∧ (s.port 1).consecutive ≤ 255
    (ex.phase = .awaiting ∧ ex.received = [] ∧ (bytes ++ [0]).length = ex.shot.len + 1 ∧ ex.shot.orphan = false
      ∧ ex.shot.kind = .pass)
    ∧ awaited (onPort1 .draining fun q => { q with exchange := some ex })
    ∧ (let s := onPort1 .opened fun q => { q with exchange := some ex }
       awaited s ∧ s.findPass 1 ex.shot.tag = some { pass3 with state := .opened }
        ∧ ((after (.returnFrameReceived 1 (bytes ++ [headCheck 0 bytes])) s).port 1).state ≠ .fault)
    ∧ (let s := atLimit .awaiting
       awaited s ∧ s.passesSound ∧ (s.port 1).outcomesWait
        ∧ ((after (.returnFrameReceived 1 (bytes ++ [headCheck 0 bytes + 1])) s).port 1).state = .fault) := by
  decide +kernel

/-- A line watched in READY with live passes, one of them with its outcome pending, and in WAKING after the pulse. -/
theorem test_witness_StuckLineFaultsThePort :
    (let s := atLimit .awaiting
     (s.port 1).state = .ready ∧ s.passesSound ∧ (s.port 1).outcomesWait
      ∧ (s.port 1).exchange = some (exchangeOf shot3 .awaiting) ∧ s.controller 1 = some 0
      ∧ (s.port 1).queue.map Pass.pendingOutcome = [some .aborted, none])
    ∧ (let s := port1 fun q => { q with state := .waking }
       (s.port 1).state = .waking ∧ (s.port 1).wakePulse = .stopped ∧ s.passesSound ∧ (s.port 1).outcomesWait) := by
  decide +kernel

theorem test_witness_WakeEndsReadyOrInFault :
    (let s := port1 fun q => { q with state := .waking, wakePulse := .running 0 }
     (s.port 1).state = .waking ∧ s.stallFollows ∧ (s.port 1).wakePulse = .running 0
      ∧ (s.port 1).wake ≠ .running 0)
    ∧ (let s := port1 fun q => { q with state := .waking, wake := .running 0 }
       (s.port 1).wakePulse = .stopped ∧ (s.port 1).wakeBytes = [] ∧ (1 : Byte).getLsbD 0 = true
        ∧ (2 : Byte).getLsbD 0 = false ∧ (0 : Byte) ≠ headCheck 0 [1, 0] ∧ (s.port 1).wake = .running 0
        ∧ (s.port 1).queue = [] ∧ (s.port 1).test = none) := by decide +kernel

theorem test_witness_PortOnResumeAndOffByState :
    scanning.listens 0 ∧ scanning.controller 1 = some 0
      ∧ ((port1 fun q => { q with state := .off }).port 1).state = .off ∧ (scanning.port 1).state ≠ .off
      ∧ ((port1 fun q => { q with state := .fault }).port 1).state = .fault ∧ (scanning.port 1).state ≠ .fault
      ∧ 1 < (2 : Byte).toNat ∧ (1 : Byte).toNat ≤ 1
      ∧ ((scanning.port 1).state = .ready ∧ (scanning.port 1).queue = [] ∧ (scanning.port 1).exchange = none)
      ∧ (((onPort1 .queued id).port 1).state = .ready ∧ ((onPort1 .queued id).port 1).queue ≠ []) := by
  decide +kernel

theorem test_witness_PortOffEndsTheWork :
    (let s := port1 fun q => { q with exchange := some (exchangeOf shot3 .awaiting) }
     s.listens 0 ∧ s.controller 1 = some 0 ∧ s.passesSound ∧ (s.port 1).outcomesWait
      ∧ (s.port 1).state = .ready ∧ (s.port 1).queue = [] ∧ (s.port 1).exchange ≠ none)
    ∧ (let s := atLimit .awaiting
       s.listens 0 ∧ s.controller 1 = some 0 ∧ s.passesSound ∧ (s.port 1).outcomesWait
        ∧ (s.port 1).state = .ready ∧ (s.port 1).queue ≠ [])
    ∧ (let s := testing shotTest
       (s.port 1).state = .test ∧ s.passesSound ∧ (s.port 1).outcomesWait) := by decide +kernel

theorem test_witness_PortConfigAndCounters :
    scanning.listens 0 ∧ scanning.controller 1 = some 0
      ∧ ((scanning.port 1).state = .ready ∧ (scanning.port 1).queue = [])
      ∧ ((testing shotTest).port 1).state ≠ .off ∧ ((testing shotTest).port 1).state ≠ .ready
      ∧ (readPortParams ⟨4, 15, 2, 40, 15, 1, 2550⟩).isSome = true ∧ readPortParams ⟨3, 15, 2, 40, 15, 1, 2550⟩ = none := by
  decide +kernel

theorem test_witness_StartTestBeginsATest :
    scanning.listens 0 ∧ scanning.controller 1 = some 0 ∧ ((testing shotTest).port 1).state ≠ .ready
      ∧ ((onPort1 .queued id).port 1).queue ≠ []
      ∧ ((scanning.port 1).state = .ready ∧ (scanning.port 1).queue = [] ∧ (scanning.port 1).exchange = none)
      ∧ (let x : TestParams := ⟨1, 0xE8, 0x03, 8, 0⟩
         x.mode = 1 ∧ x.b0.toNat + 256 * x.b1.toNat = 1000 ∧ x.b2.toNat = 8)
      ∧ (let x : TestParams := ⟨2, 0xFF, 0xFF, 16, 2⟩
         x.mode = 2 ∧ x.b0.toNat + 256 * x.b1.toNat = 65535 ∧ x.b2.toNat ≤ 16 ∧ x.b3.toNat = 2)
      ∧ (let x : TestParams := ⟨3, 2, 0, 0, 0⟩
         x.mode = 3 ∧ ¬ x.b0.toNat ≤ 1)
      ∧ scanning.angle.lock = .locked ∧ State.reset.angle.lock ≠ .locked ∧ scanning.permit.permit = .permitted
      ∧ State.reset.permit.permit = .notPermitted := by decide +kernel

theorem test_witness_StopTestAndInsertError :
    scanning.listens 0 ∧ scanning.controller 1 = some 0 ∧ (scanning.port 1).state ≠ .test
      ∧ (let s := testing shotTest
         (s.port 1).state = .test ∧ (s.port 1).test = some shotTest ∧ shotTest.mode.fires = true
          ∧ (s.port 1).slot = none)
      ∧ (let sh : Shot := { shot3 with kind := .test }
         let s := (testing shotTest).modPort 1 fun q => { q with slot := some sh }
         (s.port 1).slot = some sh ∧ sh.orphan = false)
      ∧ (let pt := sent .echo
         pt.loop = .echo ∧ pt.stopping = false ∧ pt.insert = false
          ∧ ((testing (patternTest pt)).port 1).test = some (patternTest pt)) := by decide +kernel

theorem test_witness_IntervalExpiryFiresATestShot :
    (scanning.port 1).test = none ∧
    (let s := testing shotTest
     (s.port 1).test = some shotTest ∧ shotTest.mode = .shot 6 100 (.running 0)
      ∧ (s.link 0).records.length + (s.link 0).reserved < 128 ∧ s.permit.permit = .permitted
      ∧ (s.port 1).exchange = none)
    ∧ (let s := (testing shotTest).modLink 0 fun l => { l with reserved := 128 }
       128 ≤ (s.link 0).records.length + (s.link 0).reserved) := by decide +kernel

/-- A SWEEP waiting, running with revolutions left and at its last, and due with each way of its shot. -/
theorem test_witness_SweepRunsOverItsPositions :
    let sweep := fun (ph : SweepPhase) => ({ shotTest with mode := .sweep 6 20 2 ph } : Test)
    let at650 := fun (f : Port → Port) =>
      ((testing (sweep (.running .forward (some 650) 2))).modPort 1 f).modAngle fun a => { a with position := 650 }
    let due := at650 id
    (((testing (sweep .waiting)).port 1).test = some (sweep .waiting) ∧ 1 ≤ 20
      ∧ (testing (sweep .waiting)).angle.value < (testing (sweep .waiting)).angle.cfg.cpr)
    ∧ ((due.port 1).test = some (sweep (.running .forward (some 650) 2)) ∧ due.angle.value = 650
      ∧ due.angle.value < due.angle.cfg.cpr ∧ due.permit.permit = .permitted
      ∧ (due.link 0).records.length + (due.link 0).reserved < 128 ∧ (due.port 1).exchange = none)
    ∧ 128 ≤ ((due.modLink 0 fun l => { l with reserved := 128 }).link 0).reserved
    ∧ (let q := (at650 fun q => { q with exchange := some (exchangeOf shot3 .sending) }).port 1
       q.exchange ≠ none ∧ q.slot = none)
    ∧ (let q := (at650 fun q => { q with exchange := some (exchangeOf shot3 .sending), slot := some shot3 }).port 1
       q.exchange ≠ none ∧ q.slot = some shot3 ∧ shot3.orphan = false)
    ∧ (Direction.forward ≠ .reverse ∧ (none : Option Nat) ≠ some 650 ∧ 2 ≤ 2 ∧ 1 ≤ 1 ∧ due.controller 1 = some 0) := by
  decide +kernel

/-- Each phase, both loops: the frames before and after stopping, a byte of each loop, and an echo before and after
stopping. -/
theorem test_witness_PatternTestOnTheLine :
    let runs := fun (pt : Pattern) => ((testing (patternTest pt)).port 1).test = some (patternTest pt)
      ∧ (patternTest pt).mode = .pattern pt
    (let pt := sent .echo
     runs pt ∧ pt.phase = .echoOn ∧ pt.stopping = false ∧ pt.sendTimer = .running 0
        ∧ ((testing (patternTest pt)).port 1).exchange = none ∧ ((testing (patternTest pt)).port 1).wakePulse = .stopped)
    ∧ (let pt : Pattern := { sent .echo with stopping := true }
       runs pt ∧ pt.phase = .echoOn ∧ pt.stopping = true)
    ∧ (let pt : Pattern := { sent .echo with phase := .byte }
       runs pt ∧ pt.phase = .byte ∧ pt.loop = .echo ∧ pt.sendTimer = .running 0)
    ∧ (let pt := sent .internal
       runs pt ∧ pt.phase = .byte ∧ pt.loop = .internal ∧ pt.stopping = false ∧ pt.waiting = [])
    ∧ (let pt : Pattern := { sent .echo with phase := .echo, echoTimer := .running 0 }
       runs pt ∧ pt.phase = .echo ∧ pt.stopping = false ∧ pt.waiting = [])
    ∧ (let pt : Pattern := { sent .echo with phase := .echo, stopping := true }
       runs pt ∧ pt.phase = .echo ∧ pt.echoTimer ≠ .running 0 ∧ pt.stopping = true)
    ∧ (let pt : Pattern := { sent .echo with phase := .echoOff }
       runs pt ∧ pt.phase = .echoOff ∧ ((testing (patternTest pt)).port 1).slot = none) := by decide +kernel

theorem test_witness_PatternIsGeneratedAndChecked :
    ((14 < 15 ∧ 14 < 16) ∧ 0 + 15 < 16 ∧ (sent .internal).insert = false)
    ∧ (let under := fun (k left : Nat) =>
         ({ sent .internal with bits := List.replicate k true, sendTimer := .running left } : Pattern)
       (under 7 81).phase = .byte ∧ (under 7 81).sendTimer.tick = .running 80 ∧ (under 7 81).bits.length < 8
        ∧ 400 - 80 = (7 + 1) * 640 / 16
        ∧ (under 8 80).sendTimer.tick = .running 79 ∧ (under 8 80).bits.length = 8 ∧ 8 * 640 / 16 ≤ 400 - 79
        ∧ (under 0 400).sendTimer.tick = .running 399 ∧ 0 * 640 / 16 ≤ 400 - 399 ∧ 400 - 399 < (0 + 1) * 640 / 16
        ∧ (sent .echo).phase ≠ .byte)
    ∧ (let pt : Pattern := { sent .internal with blockBits := 63, filled := 14 }
       pt.blockBits < 64 ∧ pt.filled < 15)
    ∧ (let pt : Pattern := { sent .internal with blockBits := 64, filled := 15, blockErrors := 2 }
       15 ≤ pt.filled ∧ pt.blockBits = 64 ∧ pt.waiting = [] ∧ pt.blockErrors ≤ 2
        ∧ ((testing (patternTest pt)).port 1).test = some (patternTest pt)
        ∧ ((testing (patternTest pt)).port 1).checker = .hunting) := by decide +kernel

theorem test_witness_QueryAndStatusReadTheState :
    let s := onPort1 .queued id
    s.listens 2 ∧ pass3.tag = 3 ∧ (s.port 1).queue = [] ++ pass3 :: [] ∧ (∀ r, r ≠ 1 → s.findPass r 3 = none)
      ∧ ∀ x ∈ s.livePasses, x.tag ≠ 63 := by decide +kernel

theorem test_witness_FetchTakesTheOldestRecord :
    scanning.listens 0 ∧ (scanning.link 0).records = []
      ∧ (let r := Record.shot (shotRecord 1 shot3 .clean [])
         ((link0 fun l => { l with records := [r, r] }).link 0).records = r :: [r]) := by decide +kernel

theorem test_witness_NoticesAreClearedAndEnabled : scanning.listens 0 := by decide

/-- A pass in flight, one with its outcome pending, one queued; a port in FAULT and one in TEST. -/
theorem test_witness_ScanResetEndsPassesTestsAndFaults :
    let s := ((atLimit .sending).modPort 2 fun q => { q with state := .fault }).modPort 3 fun q =>
      { q with state := .test, test := some shotTest }
    s.listens 0 ∧ s.holdsPlan 0 = true ∧ s.passesSound ∧ s.testsInTest
      ∧ (s.port 1).queue.map Pass.pendingOutcome = [some .aborted, none] := by decide +kernel

theorem test_witness_LinkResetClearsTheMaster :
    let s := (onPort1 .opened fun q => { q with exchange := some (exchangeOf shot3 .sending) }).setClaim 4
      (.handover 1 0 9)
    s.listens 0 ∧ s.claimsSound ∧ s.permitDecided := by decide +kernel

end Sys2Proof.Tests
end

/-! The requests of the Plan Store: READ_BLADE, the plan state and its settings, PUT_BLADE and DROP_BLADE (chapter 2).
Each block has one equation for its checks, and each request is that block answered on a listening link. -/

namespace Sys2Proof.BladeTable

open Sys2Proof.Machine

/-! ### READ_BLADE (R30) -/

/-- The entry that stands at a place of a table with distinct numbers is the one found by its number. -/
theorem find_of_getElem? {ps : PlanStore} (hd : (ps.blades.map Blade.number).Nodup) {k : Nat} {b : Blade}
    (hk : ps.blades[k]? = some b) : ps.find b.number = some b ∧ ps.position b.number = byteOf k := by
  obtain ⟨hlt, rfl⟩ := List.getElem?_eq_some_iff.mp hk
  have hbefore : ∀ (j : Nat) (hj : j < k), ps.blades[j].number ≠ ps.blades[k].number := fun j hj => by
    have hne := List.pairwise_iff_getElem.mp hd j k (by rw [List.length_map]; omega) (by rwa [List.length_map]) hj
    rwa [List.getElem_map, List.getElem_map] at hne
  constructor
  · exact List.find?_eq_some_iff_getElem.mpr
      ⟨by simp, k, hlt, rfl, fun j hj => by simpa using hbefore j hj⟩
  · have hidx : ps.blades.findIdx? (fun x => x.number == ps.blades[k].number) = some k :=
      List.findIdx?_eq_some_iff_getElem.mpr ⟨hlt, by simp, fun j hj => by simpa using hbefore j hj⟩
    simp [PlanStore.position, hidx]

theorem find_eq_none_iff {ps : PlanStore} {n : Byte} : ps.find n = none ↔ ∀ x ∈ ps.blades, x.number ≠ n := by
  simp [PlanStore.find]

/-- READ_BLADE answers from the table and leaves it (R30). -/
theorem exec_readBlade {m : Master} {sel v : Byte} {s : State} {status : Status} {data : List Byte}
    (h : s.listens m)
    (ha : readBlade sel v (consumeRepeats m s) = ⟨status, data, consumeRepeats m s⟩) :
    exec (.readBlade m sel v) s = .next (s.answered m 0x12 [sel, v] status data) :=
  congrArg Host.Outcome.next (request_unchanged h ha)

/-- The entry at a place of the table, answered with its position. -/
theorem answerEntry_getElem? {s : State} (hd : (s.plan.blades.map Blade.number).Nodup) {k : Nat} {b : Blade}
    (hk : s.plan.blades[k]? = some b) :
    answerEntry (some b) s = ⟨.ok, b.bytes ++ [byteOf k, byteOf s.plan.blades.length], s⟩ := by
  simp [answerEntry, (find_of_getElem? hd hk).2]

@[simp] theorem byteOf_toNat (b : Byte) : byteOf b.toNat = b := by simp [byteOf]

/-! ### The statement -/

/-- Settles O25: the entry found by its number is the one at its place, since numbers are distinct (R25). -/
theorem readBladeReturnsTheEntry : Obligations.ReadBladeReturnsTheEntry := by
  intro m v s hl hd entries
  have hd' : ((consumeRepeats m s).plan.blades.map Blade.number).Nodup := hd
  refine ⟨?_, ?_, ?_, ?_, ?_, ?_⟩
  · rintro k b hk rfl
    refine exec_readBlade hl ?_
    have hfind := (find_of_getElem? hd hk).1
    exact (congrArg (answerEntry · _) hfind).trans (answerEntry_getElem? hd' hk)
  · intro hv
    refine exec_readBlade hl ?_
    exact congrArg (answerEntry · _) (find_eq_none_iff.mpr hv)
  · intro b hv hk
    refine exec_readBlade hl ?_
    have hin : ¬ Config.tableSize ≤ v.toNat := by simp [Config.tableSize]; omega
    have := answerEntry_getElem? hd' hk
    simpa [readBlade, hin, hk] using this
  · intro hv hlen
    refine exec_readBlade hl ?_
    have hin : ¬ Config.tableSize ≤ v.toNat := by simp [Config.tableSize]; omega
    simp [readBlade, hin, List.getElem?_eq_none hlen, answerEntry, answerEntries, entries]
  · intro hv
    refine exec_readBlade hl ?_
    have hout : Config.tableSize ≤ v.toNat := hv
    simp [readBlade, hout, answerEntries, entries]
  · intro sel hsel
    refine exec_readBlade hl ?_
    unfold readBlade
    split
    · omega
    · omega
    · rfl

/-! ### ACTIVATE_PLAN and OPEN_PLAN (R32, R33) -/

section Exec
variable {m : Master} {s t : State} {status : Status} {data : List Byte}

/-- ACTIVATE_PLAN moves the part as its checks say, and answers. -/
theorem exec_activatePlan (h : s.listens m)
    (ha : activatePlan m (consumeRepeats m s) = ⟨status, data, consumeRepeats m t⟩) :
    exec (.activatePlan m) s = .next (t.answered m 0x14 [] status data) :=
  congrArg Host.Outcome.next (request_answered h ha)

theorem exec_openPlan (h : s.listens m)
    (ha : openPlan m (consumeRepeats m s) = ⟨status, data, consumeRepeats m t⟩) :
    exec (.openPlan m) s = .next (t.answered m 0x13 [] status data) :=
  congrArg Host.Outcome.next (request_answered h ha)

theorem exec_setPermitConfig {w : Option Half} (h : s.listens m)
    (ha : setPermitConfig m w (consumeRepeats m s) = ⟨status, data, consumeRepeats m t⟩) :
    exec (.setPermitConfig m w) s = .next (t.answered m 0x18 (permitParams w) status data) :=
  congrArg Host.Outcome.next (request_answered h ha)

theorem exec_setAdapt {w : Option AdaptParams} (h : s.listens m)
    (ha : setAdapt m w (consumeRepeats m s) = ⟨status, data, consumeRepeats m t⟩) :
    exec (.setAdapt m w) s = .next (t.answered m 0x16 (adaptParams w) status data) :=
  congrArg Host.Outcome.next (request_answered h ha)

theorem exec_resetCorrection {scope n : Byte} (h : s.listens m)
    (ha : resetCorrection m scope n (consumeRepeats m s) = ⟨status, data, consumeRepeats m t⟩) :
    exec (.resetCorrection m scope n) s = .next (t.answered m 0x17 [scope, n] status data) :=
  congrArg Host.Outcome.next (request_answered h ha)

end Exec

@[simp] theorem livePasses_consume (m : Master) (s : State) : (consumeRepeats m s).livePasses = s.livePasses := rfl

theorem activatePlan_edit {m : Master} {s : State} (hp : s.holdsPlan m = true) (he : s.plan.state = .edit) :
    activatePlan m s = if s.plan.blades = [] then refuse .empty s
      else ⟨.ok, [1], s.modPlan fun ps => { ps with state := .active }⟩ := by
  simp [activatePlan, hp, he, answerPlan, PlanState.code, byteOf]

theorem activatePlan_active {m : Master} {s : State} (hp : s.holdsPlan m = true) (ha : s.plan.state = .active) :
    activatePlan m s = ⟨.ok, [1], s⟩ := by
  simp [activatePlan, hp, ha, answerPlan, PlanState.code, byteOf]

theorem openPlan_active {m : Master} {s : State} (hp : s.holdsPlan m = true) (ha : s.plan.state = .active) :
    openPlan m s = if s.livePasses = [] then ⟨.ok, [0], s.modPlan fun ps => { ps with state := .edit }⟩
      else refuse .busy s := by
  simp [openPlan, hp, ha, answerPlan, PlanState.code, byteOf]

theorem openPlan_edit {m : Master} {s : State} (hp : s.holdsPlan m = true) (he : s.plan.state = .edit) :
    openPlan m s = ⟨.ok, [0], s⟩ := by
  simp [openPlan, hp, he, answerPlan, PlanState.code, byteOf]

/-! ### SET_PERMIT_CONFIG (R141), SET_ADAPT (R39) and RESET_CORRECTION (R38) -/

theorem tenMillis_iff {lo hi x : Nat} : tenMillis lo hi x = true ↔ lo ≤ x ∧ x ≤ hi ∧ x % 10 = 0 := by
  simp [tenMillis, within, and_assoc]

theorem readFreeze_of_gt {b : Byte} (h : 1 < b.toNat) : readFreeze b = none := by
  unfold readFreeze
  split
  · omega
  · omega
  · rfl

theorem answerAdapt_eq (status : Status) (s : State) :
    answerAdapt status s = ⟨status, [byteOf s.plan.gain, if s.plan.frozen then 1 else 0], s⟩ := by
  cases h : s.plan.frozen <;> simp [answerAdapt, h, flagBit, byteOf]

/-- A write of SET_ADAPT by the plan claim holder is accepted when both parameters are in range, and only then. -/
theorem setAdapt_write {m : Master} {s : State} (hp : s.holdsPlan m = true) (a : AdaptParams) :
    setAdapt m (some a) s =
      if a.gain.toNat ≤ 7 ∧ a.freeze.toNat ≤ 1 then
        ⟨.ok, [a.gain, a.freeze],
          s.modPlan fun ps => { ps with gain := a.gain.toNat, frozen := a.freeze == 1 }⟩
      else answerAdapt .range s := by
  obtain ⟨gain, freeze⟩ := a
  rcases Nat.lt_or_ge 1 freeze.toNat with hf | hf
  · have : ¬ freeze.toNat ≤ 1 := by omega
    simp [setAdapt, hp, readFreeze_of_gt hf, this]
  · have h01 : freeze = 0 ∨ freeze = 1 := by bv_omega
    rcases h01 with rfl | rfl <;> by_cases hg : gain.toNat ≤ 7 <;>
      simp [setAdapt, hp, readFreeze, within, hg, answerAdapt_eq]

theorem setPermitConfig_write {m : Master} {s : State} (hp : s.holdsPlan m = true) (v : Half) :
    setPermitConfig m (some v) s =
      if 100 ≤ v.toNat ∧ v.toNat ≤ 2000 ∧ v.toNat % 10 = 0 then
        answerPermit .ok (s.modPermit fun u => { u with qualTime := v.toNat })
      else answerPermit .range s := by
  simp [setPermitConfig, hp, tenMillis_iff]

/-- RESET_CORRECTION of one blade: the correction before is answered and 0 put in its place (R38). -/
theorem resetCorrection_one {m : Master} {n : Byte} {b : Blade} {s : State} (hp : s.holdsPlan m = true)
    (hb : s.plan.find n = some b) :
    resetCorrection m 0 n s = ⟨.ok, leBytesInt 2 b.correction,
      s.modPlan fun ps =>
        { ps with blades := ps.blades.map fun x => if x.number = n then { x with correction := 0 } else x }⟩ := by
  simp [resetCorrection, hp, hb, modBlade]

theorem resetCorrection_unknown {m : Master} {n : Byte} {s : State} (hp : s.holdsPlan m = true)
    (hn : s.plan.find n = none) : resetCorrection m 0 n s = refuse .noSuchBlade s := by
  simp [resetCorrection, hp, hn]

theorem resetCorrection_all {m : Master} {s : State} (hp : s.holdsPlan m = true) (n : Byte) :
    resetCorrection m 1 n s = ⟨.ok, [0, 0],
      s.modPlan fun ps => { ps with blades := ps.blades.map fun x => { x with correction := 0 } }⟩ := by
  simp [resetCorrection, hp]

theorem resetCorrection_scope {m : Master} {k : Byte} {s : State} (hp : s.holdsPlan m = true) (hk : 2 ≤ k.toNat)
    (n : Byte) : resetCorrection m k n s = refuse .range s := by
  unfold resetCorrection
  rw [hp]
  split
  · contradiction
  · split
    · omega
    · omega
    · rfl

/-! ### The statement -/

/-- Settles O26: each clause is the request's block as its checks say, answered on the listening link. -/
theorem planStateAndSettings : Obligations.PlanStateAndSettings := by
  refine ⟨fun m s hl hp => ?_, fun m s hl => ?_, fun m s hl => ?_⟩
  · have hc : (consumeRepeats m s).holdsPlan m = true := hp
    refine ⟨fun he hb => ?_, fun he hb => ?_, fun ha => ?_, fun ha hn => ?_, fun ha hn => ?_, fun he => ?_⟩
    · exact exec_activatePlan hl ((activatePlan_edit hc he).trans (if_neg hb))
    · exact exec_activatePlan hl ((activatePlan_edit hc he).trans (if_pos hb))
    · exact exec_activatePlan hl (activatePlan_active hc ha)
    · exact exec_openPlan hl ((openPlan_active hc ha).trans (if_pos hn))
    · exact exec_openPlan hl ((openPlan_active hc ha).trans (if_neg hn))
    · exact exec_openPlan hl (openPlan_edit hc he)
  · have hc : s.holdsPlan m = true → (consumeRepeats m s).holdsPlan m = true := id
    refine ⟨exec_setPermitConfig hl rfl, fun v hp hlo hhi htens => ?_, fun v hp hout => ?_⟩
    · exact exec_setPermitConfig hl ((setPermitConfig_write (hc hp) v).trans (if_pos ⟨hlo, hhi, htens⟩))
    · exact exec_setPermitConfig hl ((setPermitConfig_write (hc hp) v).trans (if_neg (by omega)))
  · refine ⟨exec_setAdapt hl (answerAdapt_eq .ok _), fun hp => ?_⟩
    have hc : (consumeRepeats m s).holdsPlan m = true := hp
    refine ⟨fun a hg hf => ?_, fun a hout => ?_, fun n => ⟨fun b hb => ?_, fun hn => ?_, ?_, fun k hk => ?_⟩⟩
    · exact exec_setAdapt hl ((setAdapt_write hc a).trans (if_pos ⟨hg, hf⟩))
    · exact exec_setAdapt hl
        (((setAdapt_write hc a).trans (if_neg (by omega))).trans (answerAdapt_eq .range _))
    · exact exec_resetCorrection hl (resetCorrection_one hc hb)
    · exact exec_resetCorrection hl (resetCorrection_unknown hc hn)
    · exact exec_resetCorrection hl (resetCorrection_all hc n)
    · exact exec_resetCorrection hl (resetCorrection_scope hc hk n)

/-! ### The image of PUT_BLADE (R26) -/

/-- The range check of R26, in the words of its table. -/
def ImageInRange (cpr : Nat) (im : BladeImage) : Prop :=
  (1 ≤ im.start.toNat ∧ im.start.toNat ≤ cpr - 2) ∧ (im.start.toNat < im.close.toNat ∧ im.close.toNat ≤ cpr - 1)
    ∧ (im.options.getLsbD 0 = true → im.start.toNat ≤ im.mark.toNat ∧ im.mark.toNat ≤ im.close.toNat)
    ∧ im.tracking.toNat ≤ 1

/-- The new entry that an image in range stands for: correction 0 and count 0 (R27). -/
def imageEntry (im : BladeImage) : Blade where
  number := im.number
  start := im.start.toNat
  close := im.close.toNat
  mark := if im.options.getLsbD 0 then some im.mark.toNat else none
  correction := 0
  tracking := if im.tracking = 0 then .track else .fixed
  excluded := im.options.getLsbD 1
  completed := 0

theorem readTracking_of_le {b : Byte} (h : b.toNat ≤ 1) :
    readTracking b = some (if b = 0 then .track else .fixed) := by
  have h01 : b = 0 ∨ b = 1 := by bv_omega
  rcases h01 with rfl | rfl <;> rfl

theorem readTracking_of_gt {b : Byte} (h : 1 < b.toNat) : readTracking b = none := by
  unfold readTracking
  split
  · omega
  · omega
  · rfl

/-- The mark check bears on a mark that is present. -/
theorem imageMark_all_within {im : BladeImage} :
    (imageMark im).all (within im.start.toNat im.close.toNat) = true
      ↔ (im.options.getLsbD 0 = true → im.start.toNat ≤ im.mark.toNat ∧ im.mark.toNat ≤ im.close.toNat) := by
  unfold imageMark
  by_cases h : im.options.getLsbD 0 = true
  · simp only [h, ↓reduceIte, Option.all_some, within, decide_eq_true_eq, forall_const]
  · simp only [h, Bool.false_eq_true, ↓reduceIte, Option.all_none, false_imp_iff]

theorem readBladeImage_of_inRange {cpr : Nat} {im : BladeImage} (h : ImageInRange cpr im) :
    readBladeImage cpr im = some (imageEntry im) := by
  obtain ⟨hstart, hclose, hmark, htracking⟩ := h
  have hin : (within 1 (cpr - 2) im.start.toNat && within (im.start.toNat + 1) (cpr - 1) im.close.toNat
      && (imageMark im).all (within im.start.toNat im.close.toNat)) = true := by
    simp only [Bool.and_eq_true, imageMark_all_within]
    exact ⟨⟨decide_eq_true hstart, decide_eq_true hclose⟩, hmark⟩
  simp only [readBladeImage, readTracking_of_le htracking, hin, ↓reduceIte]
  rfl

theorem readBladeImage_of_outOfRange {cpr : Nat} {im : BladeImage} (h : ¬ ImageInRange cpr im) :
    readBladeImage cpr im = none := by
  rcases Nat.lt_or_ge 1 im.tracking.toNat with ht | ht
  · simp [readBladeImage, readTracking_of_gt ht]
  · have hout : ¬ (within 1 (cpr - 2) im.start.toNat && within (im.start.toNat + 1) (cpr - 1) im.close.toNat
        && (imageMark im).all (within im.start.toNat im.close.toNat)) = true := by
      simp only [Bool.and_eq_true, imageMark_all_within]
      rintro ⟨⟨hstart, hclose⟩, hmark⟩
      exact h ⟨of_decide_eq_true hstart, of_decide_eq_true hclose, hmark, ht⟩
    simp only [readBladeImage, readTracking_of_le ht, hout]
    rfl

/-! ### PUT_BLADE check by check (R26 to R28) -/

/-- PUT_BLADE that moves the part from `s` to `t` answers with the entries and the position in `t`. -/
theorem exec_putBlade {m : Master} {im : BladeImage} {s t : State} {status : Status} (h : s.listens m)
    (ha : putBlade m im (consumeRepeats m s) = answerBlade status im.number (consumeRepeats m t)) :
    exec (.putBlade m im) s = .next (t.answered m 0x10 (bladeParams im) status
      [byteOf t.plan.blades.length, t.plan.position im.number]) :=
  congrArg Host.Outcome.next (request_answered h ha)

/-- In EDIT, an image out of range is refused (R26). -/
theorem putBlade_outOfRange {m : Master} {im : BladeImage} {s : State} (hp : s.holdsPlan m = true)
    (he : s.plan.state = .edit) (hr : ¬ ImageInRange s.angle.cfg.cpr im) :
    putBlade m im s = answerBlade .range im.number s := by
  simp [putBlade, hp, he, readBladeImage_of_outOfRange hr]

section Accepted
variable {m : Master} {im : BladeImage} {b : Blade} {s : State}

/-- An insertion whose image is in range: refused for a number in use, then for a full table, else placed (R26, R27). -/
theorem putBlade_insert (hp : s.holdsPlan m = true) (he : s.plan.state = .edit)
    (hb : readBladeImage s.angle.cfg.cpr im = some b) (hi : imageReplace im = false) :
    putBlade m im s =
      if (s.plan.find im.number).isSome then answerBlade .duplicate im.number s
      else if Config.tableSize ≤ s.plan.blades.length then answerBlade .tableFull im.number s
      else answerBlade .ok im.number (placeBlade b s) := by
  cases hf : s.plan.find im.number <;>
    simp [putBlade, hp, he, hb, hf, hi]

/-- A replacement whose image is in range: refused for a number not in use, else the entry is replaced (R26, R28). -/
theorem putBlade_replace (hp : s.holdsPlan m = true) (he : s.plan.state = .edit)
    (hb : readBladeImage s.angle.cfg.cpr im = some b) (hi : imageReplace im = true) :
    putBlade m im s =
      match s.plan.find im.number with
      | none => answerBlade .noSuchBlade im.number s
      | some old => answerBlade .ok im.number (placeBlade (replacedBlade im old b) s) := by
  cases hf : s.plan.find im.number <;> simp [putBlade, hp, he, hb, hf, hi]

end Accepted

/-- An entry with a new number is put at its place, and no entry leaves the table (R27). -/
theorem placeBlade_new {b : Blade} {s : State} (h : s.plan.find b.number = none) :
    placeBlade b s = s.modPlan fun ps => { ps with blades := insertBlade b ps.blades } := by
  have hkept : dropNumber b.number s.plan.blades = s.plan.blades :=
    List.filter_eq_self.mpr fun x hx => by simpa using find_eq_none_iff.mp h x hx
  simp only [placeBlade, State.modPlan, hkept]

/-! ### DROP_BLADE (R29) -/

theorem exec_dropBlade {m : Master} {b : Byte} {s t : State} {status : Status} (h : s.listens m)
    (ha : dropBlade m b (consumeRepeats m s) = answerEntries status (consumeRepeats m t)) :
    exec (.dropBlade m b) s = .next (t.answered m 0x11 [b] status [byteOf t.plan.blades.length]) :=
  congrArg Host.Outcome.next (request_answered h ha)

/-- DROP_BLADE in EDIT takes the entry, or is refused when there is none (R29). -/
theorem dropBlade_edit {m : Master} {b : Byte} {s : State} (hp : s.holdsPlan m = true)
    (he : s.plan.state = .edit) :
    dropBlade m b s = if s.plan.find b = none then answerEntries .noSuchBlade s
      else answerEntries .ok (s.modPlan fun ps => { ps with blades := ps.blades.filter fun x => x.number != b }) := by
  simp [dropBlade, hp, he, dropNumber]

/-! ### The statement -/

/-- Settles O24, by the checks of R26 and R29 in their order. -/
theorem bladesArePutAndDropped : Obligations.BladesArePutAndDropped := by
  refine ⟨fun m im s hl hp he h1 h2 h3 h4 hmark ht => ?_, fun m im s hl hp => ?_, fun m n s hl hp => ?_⟩
  · have hb : readBladeImage s.angle.cfg.cpr im = some (imageEntry im) :=
      readBladeImage_of_inRange ⟨⟨h1, h2⟩, ⟨h3, h4⟩, hmark, ht⟩
    refine ⟨fun hi hn hlen => ?_, fun old hi ho => ?_⟩
    · have hput := (putBlade_insert (s := consumeRepeats m s) hp he hb hi).trans
        ((if_neg (by simp [hn])).trans (if_neg (Nat.not_le.mpr hlen)))
      rw [placeBlade_new (s := consumeRepeats m s) (b := imageEntry im) hn] at hput
      exact exec_putBlade hl hput
    · have hput := putBlade_replace (s := consumeRepeats m s) hp he hb hi
      rw [plan_consume, ho] at hput
      exact exec_putBlade hl hput
  · refine ⟨fun he => ?_, fun he hout => ?_, fun he hb => ?_⟩
    · exact exec_putBlade hl (by simp [putBlade, hp, he])
    · have hnot : ¬ ImageInRange s.angle.cfg.cpr im := fun ⟨hstart, hclose, hmark, htracking⟩ => by
        rcases hout with h | h | h | h | h | ⟨hopt, h⟩
        case inr.inr.inr.inr.inr =>
          have := hmark hopt
          omega
        all_goals omega
      exact exec_putBlade hl (putBlade_outOfRange (s := consumeRepeats m s) hp he hnot)
    · obtain ⟨b, hb⟩ := Option.isSome_iff_exists.mp hb
      refine ⟨fun hi hd => ?_, fun hi hn => ?_, fun hi hn hfull => ?_⟩
      · exact exec_putBlade hl ((putBlade_insert (s := consumeRepeats m s) hp he hb hi).trans (if_pos hd))
      · have hput := putBlade_replace (s := consumeRepeats m s) hp he hb hi
        rw [plan_consume, hn] at hput
        exact exec_putBlade hl hput
      · exact exec_putBlade hl ((putBlade_insert (s := consumeRepeats m s) hp he hb hi).trans
          ((if_neg (by simp [hn])).trans (if_pos hfull)))
  · refine ⟨fun he => ?_, fun he hn => ?_, fun he ⟨x, hx, hxn⟩ => ?_⟩
    · exact exec_dropBlade hl (by simp [dropBlade, hp, he])
    · exact exec_dropBlade hl ((dropBlade_edit (s := consumeRepeats m s) hp he).trans
        (if_pos (find_eq_none_iff.mpr hn)))
    · exact exec_dropBlade hl ((dropBlade_edit (s := consumeRepeats m s) hp he).trans
        (if_neg fun hn => find_eq_none_iff.mp hn x hx hxn))

end Sys2Proof.BladeTable

/-! REPEAT and SUBMIT_PASS: the tag pool, the checks of R45 and the admission of R46 (chapter 3). -/

namespace Sys2Proof.PassRequests

open Sys2Proof.Machine Sys2Proof.BladeTable

/-! ### Tags in the pool (R42) -/

theorem mem_livePasses {s : State} {x : Pass} : x ∈ s.livePasses ↔ ∃ p, x ∈ (s.port p).queue := by
  have hall : ∀ p : PortId, p ∈ allPorts := by decide
  simp [State.livePasses, hall]

/-- A tag is in the pool when no live pass holds it. -/
theorem tagFree_iff {s : State} {t : Tag} : s.tagFree t = true ↔ ∀ x ∈ s.livePasses, x.tag ≠ t := by
  have hall : ∀ p : PortId, p ∈ allPorts := by decide
  simp only [State.tagFree, State.portOfTag, Option.isNone_iff_eq_none, List.find?_eq_none, hall, forall_const,
    Option.not_isSome_iff_eq_none, Port.findPass, mem_livePasses, beq_iff_eq]
  exact ⟨fun h x ⟨p, hx⟩ => h p x hx, fun h p x hx => h x ⟨p, hx⟩⟩

/-- The lowest tag of the pool: free, with every lower one in use. -/
theorem lowestTag_eq_some {s : State} {t : Tag} (hfree : ∀ x ∈ s.livePasses, x.tag ≠ t)
    (hlow : ∀ u : Tag, u < t → ∃ x ∈ s.livePasses, x.tag = u) : s.lowestTag = some t := by
  refine List.find?_eq_some_iff_getElem.mpr
    ⟨tagFree_iff.mpr hfree, t.val, by simp [allTags], by simp [allTags], fun j hj => ?_⟩
  obtain ⟨x, hx, hxt⟩ := hlow ⟨j, by omega⟩ (Fin.mk_lt_of_lt_val hj)
  have hused : s.tagFree ⟨j, by omega⟩ ≠ true := fun hf => tagFree_iff.mp hf x hx hxt
  simpa [allTags] using hused

/-! ### REPEAT (R47) -/

theorem exec_repeatNext_inRange {m : Master} {v : Byte} {s : State} (h : s.listens m) (h1 : 1 ≤ v.toNat)
    (h16 : v.toNat ≤ 16) :
    exec (.repeatNext m v) s
      = .next ((s.answered m 0x40 [v] .ok []).modLink m fun l => { l with repeats := some v.toNat }) := by
  have hin : within 1 16 v.toNat = true := decide_eq_true ⟨h1, h16⟩
  refine congrArg Host.Outcome.next ?_
  rw [request_listens _ _ _ h]
  simp [setRepeats, hin, consumeRepeats, State.answered, Link.answered, Link.respond]

theorem exec_repeatNext_outOfRange {m : Master} {v : Byte} {s : State} (h : s.listens m)
    (hv : v.toNat < 1 ∨ 16 < v.toNat) :
    exec (.repeatNext m v) s = .next (s.answered m 0x40 [v] .range []) := by
  have hout : within 1 16 v.toNat = false := decide_eq_false (by omega)
  exact congrArg Host.Outcome.next (request_unchanged h (by simp [setRepeats, hout, refuse]))

/-! ### The checks of SUBMIT_PASS (R45) -/

/-- The first check of R45, in the words of its table. -/
def SubmitInRange (r : SubmitParams) : Prop :=
  r.port.toNat ≤ 3 ∧ r.direction.toNat ≤ 1 ∧ 1 ≤ r.step.toNat ∧ r.limit.toNat ≤ 120
    ∧ (r.len.toNat = 2 ∨ r.len.toNat = 4 ∨ r.len.toNat = 6 ∨ r.len.toNat = 8)

/-- What a submission in range on port `p` asks for. -/
def submission (r : SubmitParams) (p : PortId) : Submission where
  port := p
  dir := if r.direction = 0 then .forward else .reverse
  step := r.step.toNat
  limit := r.limit.toNat
  len := r.len.toNat

theorem readDirection_of_le {b : Byte} (h : b.toNat ≤ 1) :
    readDirection b = some (if b = 0 then .forward else .reverse) := by
  have h01 : b = 0 ∨ b = 1 := by bv_omega
  rcases h01 with rfl | rfl <;> rfl

theorem readDirection_of_gt {b : Byte} (h : 1 < b.toNat) : readDirection b = none := by
  unfold readDirection
  split
  · omega
  · omega
  · rfl

theorem readSubmission_inRange {r : SubmitParams} {p : PortId} (hp : r.port = byteOf p.val)
    (h : SubmitInRange r) : readSubmission r = some (submission r p) := by
  obtain ⟨-, hdir, hstep, hlimit, hlen⟩ := h
  have hport : readPort r.port = some p := hp ▸ readPort_byteOf p
  have hin : (within 1 65535 r.step.toNat && within 0 Config.maxShots r.limit.toNat) = true := by
    have := r.step.isLt
    simp [within, Config.maxShots]
    omega
  simp [readSubmission, hport, readDirection_of_le hdir, readLength, hlen, hin, submission]

theorem readSubmission_outOfRange {r : SubmitParams} (h : ¬ SubmitInRange r) : readSubmission r = none := by
  rcases Nat.lt_or_ge 3 r.port.toNat with hport | hport
  · simp [readSubmission, readPort_none hport]
  rcases Nat.lt_or_ge 1 r.direction.toNat with hdir | hdir
  · simp [readSubmission, readDirection_of_gt hdir]
  by_cases hlen : r.len.toNat = 2 ∨ r.len.toNat = 4 ∨ r.len.toNat = 6 ∨ r.len.toNat = 8
  · have hout : ¬ (within 1 65535 r.step.toNat && within 0 Config.maxShots r.limit.toNat) = true := by
      simp only [within, Bool.and_eq_true, decide_eq_true_eq]
      rintro ⟨⟨hstep, -⟩, -, hlimit⟩
      exact h ⟨hport, hdir, hstep, hlimit, hlen⟩
    unfold readSubmission
    split
    · simp [hout]
    · rfl
  · simp [readSubmission, readLength, hlen]

/-- What the edge flag asks of a submission and its blade: a return that holds the edge, and a mark (R45). -/
def EdgeUnfit (r : SubmitParams) (b : Blade) : Prop :=
  r.options.getLsbD 1 = true ∧ (r.len.toNat < 6 ∨ b.mark = none)

theorem edgeUnfit_iff {r : SubmitParams} {p : PortId} {b : Blade} :
    (optionEdge r.options && (decide ((submission r p).len < 6) || b.mark.isNone)) = true ↔ EdgeUnfit r b := by
  simp only [Bool.and_eq_true, Bool.or_eq_true, decide_eq_true_eq, Option.isNone_iff_eq_none]
  rfl

section Checks
variable {r : SubmitParams} {p : PortId} {s : State}

theorem checkSubmission_outOfRange (h : ¬ SubmitInRange r) : checkSubmission r s = .error .range := by
  simp [checkSubmission, readSubmission_outOfRange h]

theorem checkSubmission_wrongState (hp : r.port = byteOf p.val) (h : SubmitInRange r)
    (hs : s.plan.state ≠ .active ∨ (s.port p).state ≠ .ready) : checkSubmission r s = .error .wrongState := by
  simp only [checkSubmission, readSubmission_inRange hp h]
  split
  · rfl
  · next ha => exact if_pos (hs.resolve_left ha)

theorem checkSubmission_noSuchBlade (hp : r.port = byteOf p.val) (h : SubmitInRange r)
    (ha : s.plan.state = .active) (hr : (s.port p).state = .ready) (hb : s.plan.find r.blade = none) :
    checkSubmission r s = .error .noSuchBlade := by
  simp [checkSubmission, readSubmission_inRange hp h, submission, ha, hr, hb]

/-- The checks of R45 that look at the blade and the port queue, in their order. -/
theorem checkSubmission_blade (hp : r.port = byteOf p.val) (h : SubmitInRange r)
    (ha : s.plan.state = .active) (hr : (s.port p).state = .ready) {b : Blade} (hb : s.plan.find r.blade = some b)
    [Decidable (EdgeUnfit r b)] :
    checkSubmission r s =
      if b.excluded = true then .error .excluded
      else if EdgeUnfit r b then .error .range
      else if 120 < shotCount b r.step.toNat r.limit.toNat then .error .tooManyShots
      else if 16 ≤ (s.port p).queue.length then .error .queueFull
      else .ok (submission r p, shotCount b r.step.toNat r.limit.toNat) := by
  have hr' : (s.port (submission r p).port).state = .ready := hr
  simp only [checkSubmission, readSubmission_inRange hp h, ha, hr', hb, edgeUnfit_iff, ne_eq, not_true, ↓reduceIte]
  rfl

end Checks

/-- The shot count of R44, by the shot limit as the request gives it. -/
theorem shotCount_toNat (b : Blade) (step : Nat) (limit : Byte) :
    shotCount b step limit.toNat =
      if limit = 0 then (b.close - b.start) / step + 1 else min limit.toNat ((b.close - b.start) / step + 1) := by
  have hzero : limit.toNat = 0 ↔ limit = 0 := by bv_omega
  simp only [shotCount, hzero, positionsThatFit]

/-! ### The answer of SUBMIT_PASS (R45, R46) -/

section Submit
variable {m : Master} {r : SubmitParams} {s : State}

theorem exec_submitPass {t : State} {status : Status} {data : List Byte} (h : s.listens m)
    (ha : submitPass m r ((s.link m).repeats.getD 1) (consumeRepeats m s) = ⟨status, data, consumeRepeats m t⟩) :
    exec (.submitPass m r) s = .next (t.answered m 0x41 (submitParams r) status data) :=
  congrArg Host.Outcome.next (request_answered h ha)

/-- A submission that fails a check before the result queue's is refused with FF, 00, 00 (R45). -/
theorem exec_submitPass_refused {status : Status} (h : s.listens m) (hc : checkSubmission r s = .error status) :
    exec (.submitPass m r) s = .next (s.answered m 0x41 (submitParams r) status [0xFF, 0, 0]) := by
  have hc' : checkSubmission r (consumeRepeats m s) = .error status := hc
  exact exec_submitPass h (by simp [submitPass, hc', refusePass])

theorem fits_one_consume : ((consumeRepeats m s).link m).fits 1 = true
    ↔ (s.link m).records.length + (s.link m).reserved < 128 := by
  rw [Link.fits, decide_eq_true_eq, consumeRepeats, State.link_modLink_self]
  exact Iff.rfl

theorem exec_submitPass_resultFull {sub : Submission} {n : Nat} (h : s.listens m)
    (hc : checkSubmission r s = .ok (sub, n)) (hfull : 128 ≤ (s.link m).records.length + (s.link m).reserved) :
    exec (.submitPass m r) s = .next (s.answered m 0x41 (submitParams r) .resultFull [0xFF, 0, 0]) := by
  have hc' : checkSubmission r (consumeRepeats m s) = .ok (sub, n) := hc
  have hfits : ((consumeRepeats m s).link m).fits 1 = false :=
    Bool.eq_false_iff.mpr fun hf => by have := fits_one_consume.mp hf; omega
  exact exec_submitPass h (by simp [submitPass, hc', hfits, refusePass])

theorem consume_admitPass (p : PortId) (x : Pass) :
    admitPass p x (consumeRepeats m s) = consumeRepeats m (admitPass p x s) := by
  unfold admitPass reserve
  rw [consume_modPort, consume_modLink]
  exact fun _ => rfl

/-- A submission that passes every check takes the lowest free tag, the tail of its port queue and one entry (R46). -/
theorem exec_submitPass_admitted {sub : Submission} {n : Nat} {tag : Tag} (h : s.listens m)
    (hc : checkSubmission r s = .ok (sub, n)) (hfits : (s.link m).records.length + (s.link m).reserved < 128)
    (htag : s.lowestTag = some tag) :
    exec (.submitPass m r) s = .next
      ((admitPass sub.port (newPass m r sub n ((s.link m).repeats.getD 1) tag) s).answered m 0x41 (submitParams r) .ok
        [byteOf tag.val, byteOf n, byteOf ((s.link m).repeats.getD 1)]) := by
  have hc' : checkSubmission r (consumeRepeats m s) = .ok (sub, n) := hc
  have htag' : (consumeRepeats m s).lowestTag = some tag := htag
  exact exec_submitPass h (by simp [submitPass, hc', fits_one_consume.mpr hfits, htag', consume_admitPass])

end Submit

/-! ### The statement -/

/-- Settles O35, by the checks of R45 in their order. -/
theorem submissionIsCheckedThenAdmitted : Obligations.SubmissionIsCheckedThenAdmitted := by
  intro m r s hl
  refine ⟨fun v => exec_repeatNext_inRange hl, fun v => exec_repeatNext_outOfRange hl,
    fun hout => exec_submitPass_refused hl (checkSubmission_outOfRange hout), fun p hp hin => ⟨fun hs => ?_, ?_⟩⟩
  · exact exec_submitPass_refused hl (checkSubmission_wrongState hp hin hs)
  refine fun ha hr => ⟨fun hb => ?_, fun b hb => ?_⟩
  · exact exec_submitPass_refused hl (checkSubmission_noSuchBlade hp hin ha hr hb)
  classical
  have hc := checkSubmission_blade hp hin ha hr hb
  rw [shotCount_toNat] at hc
  refine ⟨fun hx => exec_submitPass_refused hl (hc.trans (if_pos hx)), fun hx => ?_⟩
  replace hc := hc.trans (if_neg (Bool.eq_false_iff.mp hx))
  refine ⟨fun hu => exec_submitPass_refused hl (hc.trans (if_pos hu)), fun hu hn => ?_, fun hu hn hq => ?_,
    fun hu hn hq hfull => ?_, fun hu hn hq hfits tag hfree hlow => ?_⟩
  all_goals replace hc := hc.trans (if_neg hu)
  · exact exec_submitPass_refused hl (hc.trans (if_pos hn))
  all_goals replace hc := hc.trans (if_neg (Nat.not_lt.mpr hn))
  · exact exec_submitPass_refused hl (hc.trans (if_pos hq))
  all_goals replace hc := hc.trans (if_neg (Nat.not_le.mpr hq))
  · exact exec_submitPass_resultFull hl hc hfull
  · exact exec_submitPass_admitted hl hc hfits (lowestTag_eq_some hfree hlow)

end Sys2Proof.PassRequests

/-! The close of a pass revolution, revolution-end processing and the end of a pass (3.6, 4.4). -/

namespace Sys2Proof.RevolutionEnd

open Sys2Proof.Machine

/-! ### The end of a pass (R56, R57, R35) -/

section EndPass
variable {p : PortId} {t : Tag} {x : Pass} {s : State}

/-- The pass-end record of a pass is written to its owner, and the pass leaves its queue (R56, R57). -/
def ended (p : PortId) (x : Pass) (o : PassOutcome) (s : State) : State :=
  (s.modLink x.owner (·.written (.passEnd (passEndRecord p x o)) 3)).modPort p fun q =>
    { q with queue := q.queue.filter fun z => z.tag != x.tag }

/-- The blade's passes completed count rises by 1, stopping at 65,535 (R35). -/
theorem countCompleted_eq (n : Byte) (s : State) :
    countCompleted n s = s.modPlan fun ps =>
      { ps with blades := ps.blades.map fun b =>
          if b.number = n then { b with completed := min 65535 (b.completed + 1) } else b } := by
  have hsat : ∀ k, saturate 65535 k = min 65535 (k + 1) := fun k => by unfold saturate; split <;> omega
  simp [countCompleted, modBlade, hsat]

/-- A pass that ends ABORTED or FAILED raises no count. -/
theorem endPass_uncounted {o : PassOutcome} (h : s.findPass p t = some x) (ho : o.completes = false) :
    endPass p t o s = ended p x o s := by
  obtain rfl := Port.findPass_tag h
  simp [endPass, h, ho, writeRecord_passEnd, ended]

/-- A pass that ends COMPLETE or FLAGGED raises its blade's count. -/
theorem endPass_counted {o : PassOutcome} (h : s.findPass p t = some x) (ho : o.completes = true) :
    endPass p t o s = countCompleted x.blade (ended p x o s) := by
  obtain rfl := Port.findPass_tag h
  simp only [endPass, h, ho, writeRecord_passEnd, ↓reduceIte]
  rfl

theorem completes_finalOutcome (x : Pass) : x.finalOutcome.completes = true := by
  unfold Pass.finalOutcome
  split <;> rfl

theorem findPass_ended (p : PortId) (x : Pass) (o : PassOutcome) (s : State) :
    (ended p x o s).findPass p x.tag = none := by
  simp [ended, State.findPass, Port.findPass]

end EndPass

/-! ### A DRAINING pass (R49, R54) -/

section Settle
variable {p : PortId} {x : Pass} {s : State}

theorem settleDraining_waits (h : s.findPass p x.tag = some x)
    (hw : x.state ≠ .draining ∨ (s.port p).outstanding x.tag = true) : settleDraining p x.tag s = s := by
  rcases hw with hw | hw <;> simp [settleDraining, h, hw]

theorem settleDraining_ends {o : PassOutcome} (h : s.findPass p x.tag = some x) (hd : x.state = .draining)
    (hn : (s.port p).outstanding x.tag = false) (ho : x.pendingOutcome = some o) :
    settleDraining p x.tag s = endPass p x.tag o s := by simp [settleDraining, h, hd, hn, ho]

theorem settleDraining_revolutionEnd (h : s.findPass p x.tag = some x) (hd : x.state = .draining)
    (hn : (s.port p).outstanding x.tag = false) (ho : x.pendingOutcome = none) :
    settleDraining p x.tag s = revolutionEnd p x.tag s := by simp [settleDraining, h, hd, hn, ho]

end Settle

/-! ### Revolution-end processing (R51, R52) -/

/-- A change of the pass with a tag, as the statements write it. -/
theorem modPass_eq (p : PortId) (t : Tag) (f : Pass → Pass) (s : State) :
    modPass p t f s = s.modPort p fun q =>
      { q with queue := q.queue.map fun y => if y.tag = t then f y else y } := by simp [modPass]

/-- The pass found after a change of it that keeps its tag. -/
theorem findPass_modPass_self {p : PortId} {t : Tag} {y : Pass} {s : State} {f : Pass → Pass}
    (h : s.findPass p t = some y) (hf : ∀ y, (f y).tag = y.tag) : (modPass p t f s).findPass p t = some (f y) := by
  simp [State.findPass_modPass hf, h, Port.findPass_tag h]

/-- All that the Edge Tracker can do: nothing, an update of the blade's correction, or NO_EDGE (R130, R134). -/
theorem consult_cases (p : PortId) (x : Pass) (s : State) :
    consult p x s = s ∨ (∃ b k a o, consult p x s = edgeUpdate p x b k a o s)
      ∨ consult p x s = modPass p x.tag (fun y => { y with flags := { y.flags with noEdge := true } }) s := by
  unfold consult
  split
  · exact .inl rfl
  · split
    · exact .inl rfl
    · split
      · exact .inr (.inl ⟨_, _, _, _, rfl⟩)
      · exact .inl rfl
      · exact .inr (.inr rfl)
      · exact .inl rfl

/-- The Edge Tracker changes the flags and the last edge update of the pass, and nothing else of it (R130 to R134). -/
theorem findPass_consult {p : PortId} {x y : Pass} {s : State} (h : s.findPass p x.tag = some y) :
    ∃ f e, (consult p x s).findPass p x.tag = some { y with flags := f, lastEdge := e } := by
  rcases consult_cases p x s with hc | ⟨b, k, a, o, hc⟩ | hc <;> rw [hc]
  · exact ⟨y.flags, y.lastEdge, h⟩
  · exact ⟨_, _, findPass_modPass_self h (by exact fun _ => rfl)⟩
  · exact ⟨_, y.lastEdge, findPass_modPass_self h (by exact fun _ => rfl)⟩

/-- Revolution-end processing up to the choice of what becomes of the pass: the revolution is counted and the Edge
Tracker consulted for a pass with the edge flag (R51). -/
def tracked (p : PortId) (x : Pass) (s : State) : State :=
  let counted := modPass p x.tag (fun y => { y with revsDone := y.revsDone + 1 }) s
  if x.edge then consult p { x with revsDone := x.revsDone + 1 } counted else counted

section Tracked
variable {p : PortId} {x : Pass} {s : State}

theorem findPass_tracked (h : s.findPass p x.tag = some x) :
    ∃ f e, (tracked p x s).findPass p x.tag
      = some { x with revsDone := x.revsDone + 1, flags := f, lastEdge := e } := by
  have hc : (modPass p x.tag (fun y => { y with revsDone := y.revsDone + 1 }) s).findPass p x.tag
      = some { x with revsDone := x.revsDone + 1 } := findPass_modPass_self h fun _ => rfl
  unfold tracked
  dsimp only
  split
  · exact findPass_consult (x := { x with revsDone := x.revsDone + 1 }) hc
  · exact ⟨_, _, hc⟩

/-- With repeats left the pass returns to QUEUED; else it ends with the outcome of R52 (R51). -/
theorem revolutionEnd_eq {y : Pass} (h : s.findPass p x.tag = some x)
    (hy : (tracked p x s).findPass p x.tag = some y) :
    revolutionEnd p x.tag s =
      if y.revsDone < y.repeats then modPass p x.tag Pass.requeued (tracked p x s)
      else endPass p x.tag y.finalOutcome (tracked p x s) := by
  have hc : (modPass p x.tag (fun y => { y with revsDone := y.revsDone + 1 }) s).findPass p x.tag
      = some { x with revsDone := x.revsDone + 1 } := findPass_modPass_self h fun _ => rfl
  unfold tracked at hy ⊢
  simp only [revolutionEnd, hc, hy]

end Tracked

/-! ### The close of a pass revolution (R49, R79) -/

/-- The state in which a closed revolution drains: the pass DRAINING, its plan entry discarded and the entries of its
unfired shots released. -/
def closed (p : PortId) (x : Pass) (e : PlanEntry) (s : State) : State :=
  ((modPass p x.tag (fun y => { y with state := .draining }) s).modPort p fun q =>
    { q with plan := q.plan.filter fun f => f.tag != x.tag }).modLink x.owner fun l =>
      { l with reserved := l.reserved - (e.n - e.fired) }

theorem closeRevolution_eq {p : PortId} {x : Pass} {e : PlanEntry} {s : State} (h : s.findPass p x.tag = some x)
    (he : (s.port p).findEntry x.tag = some e) :
    closeRevolution p x.tag s = settleDraining p x.tag (closed p x e s) := by
  simp only [closeRevolution, leavePlan, h, he]
  congr 1
  simp only [closed, modPass, State.modPort_modPort]
  rfl


theorem findPass_closed {p : PortId} {x : Pass} {e : PlanEntry} {s : State} (h : s.findPass p x.tag = some x) :
    (closed p x e s).findPass p x.tag = some { x with state := .draining } := by
  have hd := findPass_modPass_self (f := fun y => { y with state := .draining }) h fun _ => rfl
  simpa [closed, State.findPass, Port.findPass] using hd

@[simp] theorem outstanding_closed (p : PortId) (x : Pass) (e : PlanEntry) (s : State) (t : Tag) :
    ((closed p x e s).port p).outstanding t = (s.port p).outstanding t := by
  simp [closed, modPass, Port.outstanding, Port.inFlight, Port.isPending]

/-- The close of a revolution waits for an outstanding exchange, or goes on to revolution-end processing (R49). -/
theorem closeRevolution_settled {p : PortId} {x : Pass} {e : PlanEntry} {s : State}
    (h : s.findPass p x.tag = some x) (ho : x.pendingOutcome = none) (he : (s.port p).findEntry x.tag = some e) :
    closeRevolution p x.tag s =
      if (s.port p).outstanding x.tag then closed p x e s else revolutionEnd p x.tag (closed p x e s) := by
  rw [closeRevolution_eq h he]
  have hc := findPass_closed (e := e) h
  split
  · next hw => exact settleDraining_waits (x := { x with state := .draining }) hc (.inr (by simpa using hw))
  · next hn =>
    exact settleDraining_revolutionEnd (x := { x with state := .draining }) hc rfl (by simpa using hn) ho

/-! ### A pass shot's exchange that ends by itself (R50, R117, R118) -/

/-- The record of a live pass's shot goes to the shot's owner and is counted in the pass (R50, R117). -/
theorem deliver_ofPass {p : PortId} {sh : Shot} {t : Tag} (h : sh.isOf t = true) (e : Ending) (d : List Byte)
    (s : State) :
    deliver p sh e d s
      = modPass p t (Pass.tally (shotRecord p sh e d)) (writeRecord sh.owner (.shot (shotRecord p sh e d)) s) := by
  simp only [Shot.isOf, Bool.and_eq_true, beq_iff_eq, Bool.not_eq_true'] at h
  obtain ⟨⟨hk, ho⟩, rfl⟩ := h
  simp [deliver, hk, ho]

/-- With ERR_LIMIT 0 and no pending shot only the error counts change (R118). -/
theorem goOn_quiet {p : PortId} {s : State} (e : Ending) (hl : (s.port p).cfg.errLimit = 0)
    (hs : (s.port p).slot = none) : goOn p e s = s.modPort p (Port.countEnding e) := by
  have hcfg : ((s.port p).countEnding e).cfg = (s.port p).cfg := by cases e <;> rfl
  have hslot : ((s.port p).countEnding e).slot = (s.port p).slot := by cases e <;> rfl
  simp [goOn, hcfg, hslot, hl, hs]

theorem queue_countEnding (e : Ending) (q : Port) : (q.countEnding e).queue = q.queue := by cases e <;> rfl

/-- What the Head Link Controller goes on by after an exchange: the configuration and the pending slot (R118). -/
def Keeps (p : PortId) (s t : State) : Prop :=
  (t.port p).cfg = (s.port p).cfg ∧ (t.port p).slot = (s.port p).slot

theorem Keeps.trans {p : PortId} {s t u : State} (h : Keeps p s t) (k : Keeps p t u) : Keeps p s u := by
  obtain ⟨hcfg, hslot⟩ := h
  obtain ⟨kcfg, kslot⟩ := k
  exact ⟨kcfg.trans hcfg, kslot.trans hslot⟩

theorem keeps_modPass (p : PortId) (t : Tag) (f : Pass → Pass) (s : State) : Keeps p s (modPass p t f s) := by
  simp [Keeps, modPass]

theorem keeps_consult (p : PortId) (x : Pass) (s : State) : Keeps p s (consult p x s) := by
  rcases consult_cases p x s with hc | ⟨b, k, a, o, hc⟩ | hc <;> rw [hc]
  · exact ⟨rfl, rfl⟩
  · exact keeps_modPass p _ _ _
  · exact keeps_modPass p _ _ _

theorem keeps_endPass (p : PortId) (t : Tag) (o : PassOutcome) (s : State) : Keeps p s (endPass p t o s) := by
  cases h : s.findPass p t with
  | none => simp [Keeps, endPass, h]
  | some x =>
    cases ho : o.completes
    · simp [Keeps, endPass_uncounted h ho, ended]
    · simp [Keeps, endPass_counted h ho, countCompleted_eq, ended]

theorem keeps_tracked (p : PortId) (x : Pass) (s : State) : Keeps p s (tracked p x s) := by
  unfold tracked
  dsimp only
  split
  · exact (keeps_modPass p _ _ s).trans (keeps_consult p _ _)
  · exact keeps_modPass p _ _ s

theorem keeps_revolutionEnd {p : PortId} {x : Pass} {s : State} (h : s.findPass p x.tag = some x) :
    Keeps p s (revolutionEnd p x.tag s) := by
  obtain ⟨f, e, hy⟩ := findPass_tracked h
  rw [revolutionEnd_eq h hy]
  split
  · exact (keeps_tracked p x s).trans (keeps_modPass p _ _ _)
  · exact (keeps_tracked p x s).trans (keeps_endPass p _ _ _)

/-- The state in which revolution-end processing follows the record of a pass's last exchange. -/
def recorded (p : PortId) (sh : Shot) (e : Ending) (s : State) : State :=
  deliver p sh e [] (s.modPort p fun q => { q with exchange := none })

/-- Without the edge flag only the revolution is counted (R51). -/
theorem tracked_noEdge {p : PortId} {x : Pass} {s : State} (h : x.edge = false) :
    tracked p x s = modPass p x.tag (fun y => { y with revsDone := y.revsDone + 1 }) s := by simp [tracked, h]

/-- A pass with a flagged record that ends with its repeats counted ends FLAGGED (R52). -/
theorem endPass_flagged {p : PortId} {t : Tag} {x : Pass} {s : State} (h : s.findPass p t = some x)
    (hf : x.flagged ≠ 0) :
    endPass p t x.finalOutcome s = countCompleted x.blade (ended p x .flagged s) := by
  have hout : x.finalOutcome = .flagged := if_neg fun hnone => hf hnone.1
  rw [hout, endPass_counted h rfl]

/-- A pass after the record of a BIT ending: one more flagged record, the observation looked at (R50, R128). -/
def afterBit (p : PortId) (sh : Shot) (x : Pass) : Pass :=
  { x with flagged := x.flagged + 1, observation := observe (shotRecord p sh .bit []) x.observation }

/-- A BIT record counts as flagged (R50). -/
theorem tally_bit (p : PortId) (sh : Shot) (x : Pass) :
    x.tally (shotRecord p sh .bit []) = afterBit p sh x := by
  have hflagged : (shotRecord p sh .bit []).flagged = true := Bool.or_true _
  simp only [Pass.tally, hflagged, ↓reduceIte]
  rfl

@[simp] theorem findPass_syncStall (s : State) (p : PortId) (t : Tag) :
    (syncStall s).findPass p t = s.findPass p t := by simp [State.findPass]

@[simp] theorem findPass_countEnding (s : State) (p : PortId) (e : Ending) (t : Tag) :
    (s.modPort p (Port.countEnding e)).findPass p t = s.findPass p t := by
  simp [State.findPass, Port.findPass, queue_countEnding]

section LastExchange
variable {p : PortId} {x : Pass} {ex : Exchange} {s : State}

theorem recorded_eq {sh : Shot} (ho : sh.isOf x.tag = true) (e : Ending) (s : State) :
    recorded p sh e s = modPass p x.tag (Pass.tally (shotRecord p sh e []))
      (writeRecord sh.owner (.shot (shotRecord p sh e [])) (s.modPort p fun q => { q with exchange := none })) :=
  deliver_ofPass ho e [] _

theorem findPass_recorded {sh : Shot} (h : s.findPass p x.tag = some x) (ho : sh.isOf x.tag = true) (e : Ending) :
    (recorded p sh e s).findPass p x.tag = some (x.tally (shotRecord p sh e [])) := by
  rw [recorded_eq ho]
  refine findPass_modPass_self ?_ fun _ => rfl
  simpa [State.findPass, Port.findPass] using h

theorem keeps_recorded {sh : Shot} (ho : sh.isOf x.tag = true) (e : Ending) :
    Keeps p s (recorded p sh e s) := by
  rw [recorded_eq ho]
  simp [Keeps, modPass]

/-- The end of a DRAINING pass's last exchange is its record, revolution-end processing and the error counts, on a port
with ERR_LIMIT 0 (R49, R117, R118). -/
theorem endExchange_last (h : s.findPass p x.tag = some x) (hex : (s.port p).exchange = some ex)
    (ho : ex.shot.isOf x.tag = true) (hslot : (s.port p).slot = none) (hl : (s.port p).cfg.errLimit = 0)
    (hd : x.state = .draining) (hn : x.pendingOutcome = none) (e : Ending) :
    endExchange p e [] s
      = (revolutionEnd p x.tag (recorded p ex.shot e s)).modPort p (Port.countEnding e) := by
  have hfind := findPass_recorded h ho e
  have hkeeps := keeps_recorded (p := p) (s := s) ho e
  have hidle : ((recorded p ex.shot e s).port p).outstanding x.tag = false := by
    simp [recorded_eq ho, modPass, Port.outstanding, Port.inFlight, Port.isPending, hslot]
  have hsettle : settleDraining p x.tag (recorded p ex.shot e s)
      = revolutionEnd p x.tag (recorded p ex.shot e s) :=
    settleDraining_revolutionEnd (x := x.tally (shotRecord p ex.shot e [])) hfind hd hidle hn
  obtain ⟨hcfg, hslot'⟩ := hkeeps.trans (keeps_revolutionEnd (x := x.tally (shotRecord p ex.shot e [])) hfind)
  have hgo := goOn_quiet e ((congrArg PortConfig.errLimit hcfg).trans hl) (hslot'.trans hslot)
  have hmine : (ex.shot.kind == .pass && !ex.shot.orphan) = true ∧ ex.shot.tag = x.tag := by
    simpa [Shot.isOf] using ho
  simp only [endExchange, hex, hmine.1, hmine.2, ↓reduceIte]
  exact (congrArg (goOn p e) hsettle).trans hgo

/-- A byte of the tag frame that reads back wrongly ends the exchange as BIT (R114). -/
theorem exec_readBackError {k : Nat} (hex : (s.port p).exchange = some ex) (hp : ex.phase = .sending)
    (hk : k < ex.frame.length) (ht : ex.sendTimer = .running (k * ((9 + ex.stopBits) * ex.bitTime / 16))) :
    exec (.readBackError p) s = .next (syncStall (endExchange p .bit [] s)) := by
  have hend : ex.atByteEnd = true := Exchange.atByteEnd_iff.mpr ⟨hp, k, hk, ht⟩
  have hany : (s.port p).exchange.any Exchange.atByteEnd = true := by simp [hex, hend]
  exact if_pos hany

/-- A record written, of whichever owner, leaves the records of a master at the front of its queue (R179). -/
theorem writeRecord_keepsRecords (m k : Master) (r : Record) (s : State) :
    (s.link k).records <+: ((writeRecord m r s).link k).records := by
  by_cases hk : k = m
  · subst hk
    rw [(link_writeRecord_self k r s).1]
    exact ⟨_, rfl⟩
  · exact ⟨[], by rw [link_writeRecord_ne r s hk, List.append_nil]⟩

/-- A pass whose records behind those of `s` end in its pass-end record has ended in `t`. -/
theorem endedWith_of_last {s u t : State} {o : PassOutcome} {p : PortId} {x : Pass}
    (hgone : t.findPass p x.tag = none) (hpre : (s.link x.owner).records <+: (u.link x.owner).records)
    (hlast : (t.link x.owner).records = (u.link x.owner).records ++ [.passEnd (passEndRecord p x o)]) :
    s.endedWith t o p x := by
  obtain ⟨rest, hrest⟩ := hpre
  refine ⟨hgone, ?_, ?_⟩ <;> rw [hlast, ← hrest]
  · simp
  · simp

theorem records_ended (p : PortId) (x : Pass) (o : PassOutcome) (s : State) :
    ((ended p x o s).link x.owner).records = (s.link x.owner).records ++ [.passEnd (passEndRecord p x o)] := by
  simp [ended, Link.written]

/-- The records of `s` stand before the record of the last exchange (R179). -/
theorem recorded_keepsRecords {sh : Shot} (ho : sh.isOf x.tag = true) (e : Ending) (k : Master) (s : State) :
    (s.link k).records <+: ((recorded p sh e s).link k).records := by
  rw [recorded_eq ho]
  exact writeRecord_keepsRecords sh.owner k _ (s.modPort p fun q => { q with exchange := none })

/-- What a BIT ending of its last exchange makes of a DRAINING pass without the edge flag: counted and requeued, or ended
FLAGGED (R49 to R52). -/
theorem revolutionEnd_recorded_bit {sh : Shot} (h : s.findPass p x.tag = some x) (ho : sh.isOf x.tag = true)
    (hedge : x.edge = false) :
    let u := revolutionEnd p x.tag (recorded p sh .bit s)
    (x.revsDone + 1 < x.repeats → ∃ y, u.findPass p x.tag = some y ∧ y.state = .queued ∧ y.revsDone = x.revsDone + 1
        ∧ y.marks = ⟨false, false, false⟩ ∧ y.flagged = x.flagged + 1 ∧ y.clean = x.clean)
      ∧ (x.repeats ≤ x.revsDone + 1 →
          s.endedWith u .flagged p { x with revsDone := x.revsDone + 1, flagged := x.flagged + 1 }) := by
  intro u
  have hfind : (recorded p sh .bit s).findPass p x.tag = some (afterBit p sh x) :=
    tally_bit p sh x ▸ findPass_recorded h ho .bit
  have hcounted := findPass_modPass_self (f := fun y => { y with revsDone := y.revsDone + 1 }) hfind fun _ => rfl
  have htracked : tracked p (afterBit p sh x) (recorded p sh .bit s) = _ := tracked_noEdge hedge
  have hrev := revolutionEnd_eq (x := afterBit p sh x) hfind (htracked ▸ hcounted)
  rw [htracked] at hrev
  refine ⟨fun hlt => ?_, fun hge => ?_⟩
  · have hu : u = _ := hrev.trans (if_pos hlt)
    rw [hu]
    exact ⟨_, findPass_modPass_self (f := Pass.requeued) hcounted fun _ => rfl, rfl, rfl, rfl, rfl, rfl⟩
  · have hu : u = _ := (hrev.trans (if_neg (Nat.not_lt.mpr hge))).trans
      (endPass_flagged hcounted (Nat.succ_ne_zero x.flagged))
    rw [hu, countCompleted_eq]
    exact endedWith_of_last (findPass_ended p _ .flagged _) (recorded_keepsRecords ho .bit x.owner s)
      (records_ended p _ .flagged _)

end LastExchange

/-! ### The statement -/

/-- Settles O40: each clause by the equation of its operation, the last one by all of them in turn. -/
theorem revolutionEndRequeuesOrEnds : Obligations.RevolutionEndRequeuesOrEnds := by
  intro p x s h _ put endedIn done counted trackedIn
  have hput : ∀ u f, put u f = modPass p x.tag f u := fun u f => (modPass_eq p x.tag f u).symm
  have htracked : trackedIn = tracked p x s := by
    simp only [trackedIn, counted, hput]
    rfl
  refine ⟨fun e hn he => ?_, fun hw => settleDraining_waits h hw, fun hd hidle => ⟨fun hn => ?_, fun o ho hout => ?_⟩,
    ?_, ?_⟩
  · simp only [hput]
    exact closeRevolution_settled h hn he
  · exact settleDraining_revolutionEnd h hd hidle hn
  · have hc : o.completes = false := by rcases hout with rfl | ⟨r, rfl⟩ <;> rfl
    exact (settleDraining_ends h hd hidle ho).trans (endPass_uncounted h hc)
  · obtain ⟨f, e, hy⟩ := findPass_tracked h
    have hrev := revolutionEnd_eq h hy
    rw [htracked]
    refine ⟨_, hy, rfl, rfl, rfl, rfl, fun hlt => ?_, fun hge => ?_⟩
    · rw [hput]
      exact hrev.trans (if_pos hlt)
    · refine (hrev.trans (if_neg (Nat.not_lt.mpr hge))).trans ?_
      rw [endPass_counted hy (completes_finalOutcome _), countCompleted_eq]
      rfl
  · intro ex k hex hp hk ht ho hslot hl hd hn hedge
    refine ⟨_, exec_readBackError hex hp hk ht, ?_⟩
    rw [endExchange_last h hex ho hslot hl hd hn]
    simpa [State.endedWith, done] using revolutionEnd_recorded_bit h ho hedge

end Sys2Proof.RevolutionEnd

/-! The trigger lines and the permit (R98, R99, R143, R144): which operations leave the lines as they are, that none is
driven while the permit is NOT_PERMITTED, and that every step keeps the permit as its inputs decide it. -/

namespace Sys2Proof.TriggerLines

open Sys2Proof.Machine

/-! ### The basic updates -/

section Updates
variable (p r : PortId) (t : Tag) (s : State)

theorem trigger_modPort {f : Port → Port} (hf : ∀ q, (f q).trigger = q.trigger) :
    ((s.modPort p f).port r).trigger = (s.port r).trigger := by
  rw [State.port_modPort]
  split
  · next h => rw [h, hf]
  · rfl

@[simp] theorem trigger_modPass (f : Pass → Pass) :
    ((modPass p t f s).port r).trigger = (s.port r).trigger := trigger_modPort p r s fun _ => rfl

@[simp] theorem trigger_modEntry (f : PlanEntry → PlanEntry) :
    ((modEntry p t f s).port r).trigger = (s.port r).trigger := trigger_modPort p r s fun _ => rfl

@[simp] theorem trigger_modTest (f : Test → Test) :
    ((modTest p f s).port r).trigger = (s.port r).trigger := trigger_modPort p r s fun _ => rfl

@[simp] theorem port_modBlade (n : Byte) (f : Blade → Blade) : (modBlade n f s).port r = s.port r := rfl

@[simp] theorem port_reserve (m : Master) (n : Nat) : (reserve m n s).port r = s.port r := rfl

@[simp] theorem port_releaseEntries (m : Master) (n : Nat) : (releaseEntries m n s).port r = s.port r := rfl

@[simp] theorem port_raiseController (n : Notice) : (raiseController n p s).port r = s.port r := by
  rcases raiseController_cases n p s with ⟨_, h⟩ | ⟨m, _, h⟩ <;> rw [h]
  rfl

end Updates

/-- Operations along a list, none of which changes a trigger line. -/
theorem trigger_foldl {α : Type} {r : PortId} {g : State → α → State}
    (hg : ∀ s x, ((g s x).port r).trigger = (s.port r).trigger) (xs : List α) (s : State) :
    ((xs.foldl g s).port r).trigger = (s.port r).trigger := by
  induction xs generalizing s with
  | nil => rfl
  | cons x rest ih => exact (ih _).trans (hg s x)

/-! ### Passes (chapters 3, 4 and 7) -/

section Passes
variable (p r : PortId) (t : Tag) (s : State)

@[simp] theorem trigger_deliver (sh : Shot) (e : Ending) (d : List Byte) :
    ((deliver p sh e d s).port r).trigger = (s.port r).trigger := by
  unfold deliver
  split
  · rfl
  · cases sh.kind <;> simp

@[simp] theorem trigger_dropSlot : ((dropSlot p s).port r).trigger = (s.port r).trigger := by
  unfold dropSlot
  split <;> simp [trigger_modPort]

@[simp] theorem trigger_dropPendingOf : ((dropPendingOf p t s).port r).trigger = (s.port r).trigger := by
  unfold dropPendingOf
  split <;> simp

@[simp] theorem trigger_consult (x : Pass) : ((consult p x s).port r).trigger = (s.port r).trigger := by
  rcases RevolutionEnd.consult_cases p x s with h | ⟨b, k, a, o, h⟩ | h <;> simp [h, edgeUpdate]

@[simp] theorem trigger_endPass (o : PassOutcome) : ((endPass p t o s).port r).trigger = (s.port r).trigger := by
  unfold endPass
  split
  · rfl
  · cases o.completes <;> simp [trigger_modPort, countCompleted]

@[simp] theorem trigger_revolutionEnd : ((revolutionEnd p t s).port r).trigger = (s.port r).trigger := by
  unfold revolutionEnd
  dsimp only
  split
  · simp
  · next x _ => cases x.edge <;> split <;> simp <;> split <;> simp

@[simp] theorem trigger_settleDraining : ((settleDraining p t s).port r).trigger = (s.port r).trigger := by
  unfold settleDraining
  repeat' split
  all_goals simp

@[simp] theorem trigger_leavePlan : ((leavePlan p t s).port r).trigger = (s.port r).trigger := by
  unfold leavePlan
  split <;> simp [trigger_modPort]

@[simp] theorem trigger_closeRevolution : ((closeRevolution p t s).port r).trigger = (s.port r).trigger := by
  simp [closeRevolution]

@[simp] theorem trigger_endOrDrain (o : PassOutcome) :
    ((endOrDrain p t o s).port r).trigger = (s.port r).trigger := by
  unfold endOrDrain
  split <;> simp

@[simp] theorem trigger_failPass (o : PassOutcome) : ((failPass p t o s).port r).trigger = (s.port r).trigger := by
  unfold failPass
  split
  · rfl
  · next x _ => cases x.pendingOutcome <;> cases x.state <;> simp

@[simp] theorem trigger_failPort (f : Pass → Bool) (o : PassOutcome) :
    ((failPort f o p s).port r).trigger = (s.port r).trigger :=
  trigger_foldl (fun s t => trigger_failPass p r t s o) _ s

end Passes

/-! ### Head links and tests (chapters 6 and 10) -/

section Heads
variable (p r : PortId) (s : State)

@[simp] theorem trigger_startExchange (sh : Shot) :
    ((startExchange p sh s).port r).trigger = (s.port r).trigger := trigger_modPort p r s fun _ => rfl

@[simp] theorem trigger_endTest (a : PortState) : ((endTest p a s).port r).trigger = (s.port r).trigger := by
  simp [endTest, trigger_modPort]

@[simp] theorem trigger_endTestIf (w : TestMode → Bool) :
    ((endTestIf w p s).port r).trigger = (s.port r).trigger := by
  unfold endTestIf
  repeat' split
  all_goals simp

@[simp] theorem trigger_cutExchange (e : Ending) : ((cutExchange p e s).port r).trigger = (s.port r).trigger := by
  unfold cutExchange
  repeat' split
  all_goals simp [trigger_modPort]

theorem trigger_countStuck (q : Port) : (countStuck q).trigger = q.trigger := by
  unfold countStuck
  split <;> rfl

@[simp] theorem trigger_enterFault (f : FaultReason) : ((enterFault p f s).port r).trigger = (s.port r).trigger := by
  unfold enterFault
  dsimp only
  repeat' split
  all_goals simp [trigger_modPort, trigger_countStuck]

theorem trigger_countEnding (e : Ending) (q : Port) : (q.countEnding e).trigger = q.trigger := by cases e <;> rfl

@[simp] theorem trigger_goOn (e : Ending) : ((goOn p e s).port r).trigger = (s.port r).trigger := by
  unfold goOn
  dsimp only
  repeat' split
  all_goals simp [trigger_modPort, trigger_countEnding]

@[simp] theorem trigger_endExchange (e : Ending) (d : List Byte) :
    ((endExchange p e d s).port r).trigger = (s.port r).trigger := by
  unfold endExchange
  repeat' split
  all_goals simp [trigger_modPort]

@[simp] theorem trigger_returnComplete (ex : Exchange) :
    ((returnComplete p ex s).port r).trigger = (s.port r).trigger := by
  unfold returnComplete
  dsimp only
  repeat' split
  all_goals simp

theorem trigger_stray (q : Port) : q.stray.trigger = q.trigger := by
  unfold Port.stray
  split <;> rfl

@[simp] theorem trigger_modPort_seenHigh :
    ((s.modPort p Port.seenHigh).port r).trigger = (s.port r).trigger := trigger_modPort p r s fun _ => rfl

@[simp] theorem trigger_modPort_highWithin (n : Nat) :
    ((s.modPort p (Port.highWithin n)).port r).trigger = (s.port r).trigger := trigger_modPort p r s fun _ => rfl

@[simp] theorem trigger_receiveByte (b : Byte) : ((receiveByte p s b).port r).trigger = (s.port r).trigger := by
  unfold receiveByte
  dsimp only
  repeat' split
  all_goals simp [trigger_modPort, trigger_stray, Port.seenHigh]

@[simp] theorem trigger_receiveUnframed : ((receiveUnframed p s).port r).trigger = (s.port r).trigger := by
  unfold receiveUnframed
  dsimp only
  split
  · simp
  · rw [trigger_modPort p r _ trigger_stray, trigger_modPort_highWithin]

@[simp] theorem trigger_receiveBytes (bs : List Byte) :
    ((receiveBytes p bs s).port r).trigger = (s.port r).trigger := by
  rw [receiveBytes_eq]
  exact trigger_foldl (fun s b => trigger_receiveByte p r s b) bs s

theorem trigger_feedChecker (bits : List Bool) (t : Test) (pt : Pattern) (q : Port) :
    (q.feedChecker bits t pt).trigger = q.trigger := by
  unfold Port.feedChecker
  split <;> rfl

@[simp] theorem trigger_echoDone (bits : List Bool) : ((echoDone p bits s).port r).trigger = (s.port r).trigger := by
  unfold echoDone
  repeat' split
  all_goals simp [trigger_modPort, trigger_feedChecker]

@[simp] theorem trigger_stopTest : ((stopTest p s).port r).trigger = (s.port r).trigger := by
  unfold stopTest
  repeat' split
  all_goals simp [trigger_modPort]

@[simp] theorem trigger_faultIfStuck : ((faultIfStuck p s).port r).trigger = (s.port r).trigger := by
  unfold faultIfStuck
  split <;> simp

end Heads

/-! ### Trigger Units, sweeps and planners (chapters 4, 5 and 10.3) -/

section Units
variable (p r : PortId) (s : State)

@[simp] theorem trigger_skipTo (t : Tag) (l : Nat) : ((skipTo p t l s).port r).trigger = (s.port r).trigger := by
  unfold skipTo
  dsimp only
  repeat' split
  all_goals simp

@[simp] theorem trigger_slipAtTrigger (j : Bool) :
    ((slipAtTrigger j p s).port r).trigger = (s.port r).trigger := by
  unfold slipAtTrigger
  dsimp only
  repeat' split
  all_goals simp [markSlip, trigger_modPort]

@[simp] theorem trigger_reverseAtTrigger : ((reverseAtTrigger p s).port r).trigger = (s.port r).trigger := by
  unfold reverseAtTrigger
  split <;> simp

@[simp] theorem trigger_originAtSweep (d : Direction) :
    ((originAtSweep d p s).port r).trigger = (s.port r).trigger := by
  unfold originAtSweep
  dsimp only
  repeat' split
  all_goals simp

@[simp] theorem trigger_jumpAtSweep : ((jumpAtSweep p s).port r).trigger = (s.port r).trigger := by
  unfold jumpAtSweep
  repeat' split
  all_goals simp

@[simp] theorem trigger_reverseAtSweep : ((reverseAtSweep p s).port r).trigger = (s.port r).trigger := by
  unfold reverseAtSweep
  repeat' split
  all_goals simp

theorem trigger_directionChangeAt : ((directionChangeAt p s).port r).trigger = (s.port r).trigger := by
  simp [directionChangeAt]

theorem trigger_slipAt (j : Bool) : ((slipAt j p s).port r).trigger = (s.port r).trigger := by
  cases j <;> simp [slipAt]

@[simp] theorem trigger_returnPass (t : Tag) : ((returnPass p t s).port r).trigger = (s.port r).trigger := by
  unfold returnPass
  split <;> simp

@[simp] theorem trigger_considerPass (d : Direction) (t : Tag) :
    ((considerPass d p t s).port r).trigger = (s.port r).trigger := by
  unfold considerPass
  dsimp only
  repeat' split
  all_goals simp [choosePass, trigger_modPort]

theorem trigger_originAt (d : Direction) : ((originAt d p s).port r).trigger = (s.port r).trigger := by
  have hreturn : ((returnUnopened p s).port r).trigger = (s.port r).trigger :=
    trigger_foldl (fun s t => trigger_returnPass p r s t) _ s
  have hwalk : ∀ u, ((walk d p u).port r).trigger = (u.port r).trigger := fun u =>
    trigger_foldl (fun s t => trigger_considerPass p r s d t) _ u
  simp only [originAt, trigger_originAtSweep, originAtPlanner]
  split
  · exact (hwalk _).trans hreturn
  · exact hreturn

end Units

/-! ### States with the same permit and the same lines -/

/-- From `s` to `t` the permit and what decides it stand (R143), and while it is NOT_PERMITTED no trigger line changes
(R99). -/
structure Steady (s t : State) : Prop where
  permit : t.permit.permit = s.permit.permit
  decided : t.permit.decided = s.permit.decided
  lines : s.permit.permit = .notPermitted → ∀ r, (t.port r).trigger = (s.port r).trigger

/-- The permit is the one decided, and without it the lines are dark. -/
def PermitSound (s : State) : Prop := s.permitDecided ∧ s.darkUnlessPermitted

namespace Steady

theorem refl (s : State) : Steady s s := ⟨rfl, rfl, fun _ _ => rfl⟩

theorem trans {s t u : State} (h : Steady s t) (k : Steady t u) : Steady s u :=
  ⟨k.permit.trans h.permit, k.decided.trans h.decided,
    fun hn r => (k.lines (h.permit.trans hn) r).trans (h.lines hn r)⟩

/-- What is steady keeps the permit sound. -/
theorem permitSound {s t : State} (h : Steady s t) (hs : PermitSound s) : PermitSound t := by
  obtain ⟨hdecided, hdark⟩ := hs
  refine ⟨?_, fun hn r => ?_⟩
  · rw [State.permitDecided, h.permit, h.decided, hdecided]
  · rw [h.permit] at hn
    rw [h.lines hn r, hdark hn r]

/-- A state with the same Permit Unit and the same lines. -/
theorem of_eq {s t : State} (hu : t.permit = s.permit) (hl : ∀ r, (t.port r).trigger = (s.port r).trigger) :
    Steady s t := ⟨congrArg PermitUnit.permit hu, congrArg PermitUnit.decided hu, fun _ => hl⟩

/-- A state with the same Permit Unit and the same ports. -/
theorem of_ports {s t : State} (hu : t.permit = s.permit) (hp : t.ports = s.ports) : Steady s t :=
  of_eq hu fun r => by rw [State.port, State.port, hp]

/-- An operation at a port that changes no line. -/
theorem of_atPort {p : PortId} {s t : State} (h : AtPort p s t)
    (hl : ∀ r, (t.port r).trigger = (s.port r).trigger) : Steady s t := of_eq h.permit hl

theorem modLink (m : Master) (f : Link → Link) (s : State) : Steady s (s.modLink m f) := of_ports rfl rfl

theorem modAngle (f : AngleUnit → AngleUnit) (s : State) : Steady s (s.modAngle f) := of_ports rfl rfl

theorem modPort (p : PortId) {f : Port → Port} (hf : ∀ q, (f q).trigger = q.trigger) (s : State) :
    Steady s (s.modPort p f) := of_eq rfl fun r => trigger_modPort p r s hf

theorem raiseAll (n : Notice) (s : State) : Steady s (raiseAll n s) := of_ports rfl rfl

theorem syncStall (s : State) : Steady s (syncStall s) := of_ports (by simp) (by simp)

theorem ite (c : Prop) [Decidable c] {s t u : State} (h : Steady s t) (k : Steady s u) :
    Steady s (if c then t else u) := by split <;> assumption

/-- An event that is steady at each port, taken by the four ports in whatever order. -/
theorem atPorts {f : PortId → State → State} (hf : ∀ p s, Steady s (f p s)) (s : State) :
    Steady s (atPorts f s) :=
  atPorts_keeps (P := Steady s) (fun p t h => h.trans (hf p t)) (fun _ _ h => h.trans (of_ports rfl rfl)) (refl s)

theorem eachPort {f : PortId → State → State} (hf : ∀ p s, Steady s (f p s)) (s : State) :
    Steady s (eachPort f s) := eachPort_keeps (P := Steady s) (fun p t h => h.trans (hf p t)) (refl s)

/-! #### Firing needs the permit (R99) -/

theorem countAtTrigger (d : Direction) (p : PortId) (s : State) : Steady s (countAtTrigger d p s) := by
  have h := AtPort.countAtTrigger d p s
  refine ⟨congrArg PermitUnit.permit h.permit, congrArg PermitUnit.decided h.permit, fun hn r => ?_⟩
  simp [Machine.countAtTrigger, hn]

theorem dueTestShot (p : PortId) (s : State) : Steady s (dueTestShot p s) := by
  have h := AtPort.dueTestShot p s
  refine ⟨congrArg PermitUnit.permit h.permit, congrArg PermitUnit.decided h.permit, fun hn r => ?_⟩
  unfold Machine.dueTestShot
  split
  · rfl
  · simp only [hn, reduceCtorEq, ↓reduceIte]
    split
    · rfl
    · exact trigger_modPort p r s fun _ => rfl

theorem countAtSweep (d : Direction) (p : PortId) (s : State) : Steady s (countAtSweep d p s) := by
  unfold Machine.countAtSweep
  repeat' split
  case isTrue => exact (dueTestShot p s).trans (of_eq rfl fun r => trigger_modTest p r _ _)
  all_goals exact refl s

theorem countAt (d : Direction) (p : PortId) (s : State) : Steady s (countAt d p s) :=
  (countAtTrigger d p s).trans (countAtSweep d p _)

/-! #### The Angle Unit (chapter 1) -/

theorem failPasses (f : Pass → Bool) (why : Reason) (s : State) : Steady s (failPasses f why s) :=
  eachPort (fun p s => of_atPort (AtPort.failPort f _ p s) fun r => trigger_failPort p r s f _) s

theorem endTests (w : TestMode → Bool) (s : State) : Steady s (Machine.atPorts (endTestIf w) s) :=
  atPorts (fun p s => of_atPort (AtPort.endTestIf w p s) fun r => trigger_endTestIf p r s w) s

theorem lossOfLock (s : State) : Steady s (lossOfLock s) := by
  unfold Machine.lossOfLock
  extract_lets s1 s2
  have h1 : Steady s s1 := raiseAll _ s
  have h2 : Steady s1 s2 := failPasses _ _ s1
  exact (h1.trans h2).trans (endTests _ s2)

theorem takeSlip (j : Bool) (s : State) : Steady s (takeSlip j s) := by
  have h : Steady s (Machine.atPorts (slipAt j) s) :=
    atPorts (fun p s => of_atPort (AtPort.slipAt j p s) fun r => trigger_slipAt p r s j) s
  exact ite _ ((h.trans (modAngle _ _)).trans (lossOfLock _)) h

theorem indexEvent (s : State) : Steady s (indexEvent s) := by
  unfold Machine.indexEvent
  split
  · exact (modAngle _ s).trans (raiseAll _ _)
  · split
    · exact refl s
    · exact ite _ ((modAngle _ s).trans (raiseAll _ _)) (modAngle _ s)
    · exact modAngle _ s
  · split
    · exact refl s
    · exact modAngle _ s
    · exact (modAngle _ s).trans (takeSlip _ _)

theorem missedIndex (s : State) : Steady s (missedIndex s) := by
  unfold Machine.missedIndex
  split
  · split
    · exact refl s
    · exact modAngle _ s
    · exact (modAngle _ s).trans (takeSlip _ _)
  · exact refl s

theorem trackDirection (d : Direction) (s : State) : Steady s (trackDirection d s) := by
  have h : ∀ p u, Steady u (directionChangeAt p u) := fun p u =>
    of_atPort (AtPort.directionChangeAt p u) fun r => trigger_directionChangeAt p r u
  exact ite _ ((modAngle _ s).trans (atPorts h _)) (modAngle _ s)

theorem originTest (d : Direction) (before : Nat) (s : State) : Steady s (originTest d before s) := by
  have h : ∀ p u, Steady u (originAt d p u) := fun p u =>
    of_atPort (AtPort.originAt d p u) fun r => trigger_originAt p r u d
  exact ite _ ((modAngle _ s).trans (atPorts h _)) (refl s)

theorem decodedCountSteps (mv : Move) (z : Bool) (s : State) : Steady s (decodedCountSteps mv z s) := by
  unfold Machine.decodedCountSteps
  extract_lets d before s1 s2 s3 s4 s5 s6 s7
  have h3 : Steady s s3 := ((modAngle _ s).trans (trackDirection d s1)).trans (originTest d before s2)
  have h4 : Steady s s4 := h3.trans (atPorts (countAt d) s3)
  have h5 : Steady s s5 := h4.trans (ite _ (indexEvent s4) (refl s4))
  have h7 : Steady s s7 := (h5.trans (missedIndex s5)).trans (modAngle _ s6)
  exact (h7.trans (syncStall s7)).trans (ite _ (modAngle _ _) (refl _))

theorem quadratureErrorSteps (s : State) : Steady s (quadratureErrorSteps s) := by
  unfold Machine.quadratureErrorSteps
  extract_lets s1
  have h1 : Steady s s1 := modAngle _ s
  split
  · exact h1
  · exact h1.trans (modAngle _ s1)
  · exact ((h1.trans (modAngle _ s1)).trans (takeSlip _ _)).trans (syncStall _)

end Steady

/-! ### The Permit Unit (8.4) -/

/-- An update of each port in turn. -/
theorem port_eachPort_modPort (f : Port → Port) (s : State) (r : PortId) :
    (eachPort (fun p s => s.modPort p f) s).port r = f (s.port r) := by
  have h : ∀ r : PortId, r = 0 ∨ r = 1 ∨ r = 2 ∨ r = 3 := by decide
  rcases h r with rfl | rfl | rfl | rfl <;> simp [eachPort, allPorts]

theorem trigger_cutPulse (q : Port) : q.cutPulse.trigger = false := by
  unfold Port.cutPulse
  split
  · rfl
  · next h => simpa using h

/-- The loss of the permit leaves every trigger line INACTIVE (R99, R144). -/
theorem trigger_loseTriggers (s : State) (hn : s.permit.permit = .notPermitted) (r : PortId) :
    ((loseTriggers s).port r).trigger = false := by
  unfold loseTriggers
  extract_lets s1 s2 s3
  have h1 : Inner s s1 := Inner.eachPort _ (fun p s => AtPort.modPort p _ s) s
  have h12 : Steady s1 s2 := Steady.failPasses _ _ s1
  have h23 : Steady s2 s3 := Steady.endTests _ s2
  have h14 : Steady s1 (raiseAll .permit s3) := (h12.trans h23).trans (Steady.raiseAll _ s3)
  rw [h14.lines ((congrArg PermitUnit.permit h1.permit).trans hn) r]
  exact (congrArg Port.trigger (port_eachPort_modPort Port.cutPulse s r)).trans (trigger_cutPulse _)

/-- After the decision the permit is the one decided, and a line is ACTIVE only under it (R143, R144). -/
theorem permitSound_decidePermit {s : State} (hs : s.darkUnlessPermitted) : PermitSound (decidePermit s) := by
  unfold decidePermit
  split
  · next h => exact ⟨h.symm, hs⟩
  · extract_lets u
    have hdecided : u.permitDecided := rfl
    split
    · next hn =>
      have hpermit : (loseTriggers u).permit = u.permit := (Inner.loseTriggers u).permit
      exact ⟨by rw [State.permitDecided, hpermit]; exact hdecided, fun _ => trigger_loseTriggers u hn⟩
    · next hp => exact (Steady.raiseAll _ u).permitSound ⟨hdecided, fun hn => by simp [hp] at hn⟩

/-- An event of the Permit Unit keeps the permit sound: it decides it anew wherever an input of it changes (R143). -/
theorem permitSound_changePermit {f : PermitUnit → PermitUnit} (hf : ∀ u, (f u).permit = u.permit) {s : State}
    (hs : PermitSound s) : PermitSound (changePermit f s) := by
  obtain ⟨hdecided, hdark⟩ := hs
  unfold changePermit
  extract_lets u
  have hpermit : u.permit.permit = s.permit.permit := hf s.permit
  have hudark : u.darkUnlessPermitted := fun hn => hdark (hpermit.symm.trans hn)
  split
  · next h =>
    refine ⟨?_, hudark⟩
    rw [State.permitDecided, hpermit, hdecided]
    simp only [PermitUnit.decided, h.1, h.2]
  · exact (Steady.syncStall _).permitSound (permitSound_decidePermit hudark)

theorem permit_setHold (m : Master) (on : Bool) (u : PermitUnit) : (setHold m on u).permit = u.permit := rfl

/-! ### What a command answers -/

/-- Whatever state a command answers, its permit is sound. -/
def SoundResult (r : Result) : Prop := ∀ t, r = .next t → PermitSound t

theorem soundResult_next {t : State} (h : PermitSound t) : SoundResult (.next t) := fun u hu => by
  cases hu
  exact h

section Requests
variable {s : State}

/-- A request keeps the permit sound when its owning block does. -/
theorem soundResult_request {m : Master} {code : Byte} {params : List Byte} {act : State → Answer}
    (hact : ∀ u, PermitSound u → PermitSound (act u).state) (hs : PermitSound s) :
    SoundResult (.next (request m code params act s)) := by
  apply soundResult_next
  unfold request transact
  split
  · exact (Steady.modLink m _ _).permitSound (hact _ ((Steady.modLink m _ s).permitSound hs))
  · exact (Steady.modLink m _ s).permitSound hs
  · exact (Steady.modLink m _ s).permitSound hs
  · exact (Steady.modLink m _ s).permitSound hs
  · exact hs

/-- A request whose block changes neither the permit nor a line. -/
theorem soundResult_steadyRequest {m : Master} {code : Byte} {params : List Byte} {act : State → Answer}
    (hact : ∀ u, Steady u (act u).state) (hs : PermitSound s) :
    SoundResult (.next (request m code params act s)) :=
  soundResult_request (fun u hu => (hact u).permitSound hu) hs

theorem soundResult_requestNotTaken (m : Master) (frame : List Byte) (status : Status) (hs : PermitSound s) :
    SoundResult (.next (requestNotTaken m frame status s)) := by
  apply soundResult_next
  unfold requestNotTaken transact
  split
  · exact (Steady.modLink m _ s).permitSound hs
  · exact (Steady.modLink m _ s).permitSound hs
  · exact (Steady.modLink m _ s).permitSound hs
  · exact (Steady.modLink m _ s).permitSound hs
  · exact hs

end Requests

/-! #### The Plan Store and the Angle Unit (chapters 1 and 2) -/

namespace Steady

theorem reconfigure (new : AngleConfig) (s : State) : Steady s (reconfigure new s) := by
  have hjump : ∀ p u, Steady u (jumpAtSweep p u) := fun p u =>
    of_atPort (AtPort.jumpAtSweep p u) fun r => trigger_jumpAtSweep p r u
  unfold Machine.reconfigure
  extract_lets old lock s1 s2
  have h1 : Steady s s1 := modAngle _ s
  split
  · have h2 : Steady s s2 := h1.trans (modAngle _ s1)
    cases lock
    · exact h2
    · exact h2.trans (raiseAll _ s2)
    · exact h2.trans (lossOfLock s2)
  · exact ite _ ((h1.trans (atPorts hjump s1)).trans (modAngle _ _)) h1

theorem putBlade (m : Master) (im : BladeImage) (s : State) : Steady s (putBlade m im s).state := by
  unfold Machine.putBlade
  repeat' split
  all_goals exact of_ports rfl rfl

theorem dropBlade (m : Master) (b : Byte) (s : State) : Steady s (dropBlade m b s).state := by
  unfold Machine.dropBlade
  repeat' split
  all_goals exact of_ports rfl rfl

theorem readBlade (sel v : Byte) (s : State) : Steady s (readBlade sel v s).state := by
  have hentry : ∀ b, Steady s (answerEntry b s).state := fun b => by cases b <;> exact refl s
  unfold Machine.readBlade
  split
  · exact hentry _
  · split
    · exact refl s
    · exact hentry _
  · exact refl s

theorem openPlan (m : Master) (s : State) : Steady s (openPlan m s).state := by
  unfold Machine.openPlan
  repeat' split
  all_goals exact of_ports rfl rfl

theorem activatePlan (m : Master) (s : State) : Steady s (activatePlan m s).state := by
  unfold Machine.activatePlan
  repeat' split
  all_goals exact of_ports rfl rfl

theorem setAngleConfig (m : Master) (w : Option AngleParams) (s : State) :
    Steady s (setAngleConfig m w s).state := by
  unfold Machine.setAngleConfig
  split
  · exact refl s
  · split
    · exact refl s
    · split
      · exact refl s
      · split
        · exact refl s
        · split
          · exact refl s
          · exact (reconfigure _ s).trans (syncStall _)

theorem setAdapt (m : Master) (w : Option AdaptParams) (s : State) : Steady s (setAdapt m w s).state := by
  unfold Machine.setAdapt
  repeat' split
  all_goals exact of_ports rfl rfl

theorem resetCorrection (m : Master) (scope n : Byte) (s : State) :
    Steady s (resetCorrection m scope n s).state := by
  unfold Machine.resetCorrection
  repeat' split
  all_goals exact of_ports rfl rfl

theorem setPermitConfig (m : Master) (w : Option Half) (s : State) :
    Steady s (setPermitConfig m w s).state := by
  unfold Machine.setPermitConfig
  repeat' split
  all_goals exact ⟨rfl, rfl, fun _ _ => rfl⟩

/-! #### Claims and ports (chapters 6, 9 and 10) -/

theorem claimRequest (act : Master → Claim → ClaimStep) (m : Master) (n : Byte) (s : State) :
    Steady s (claimRequest act m n s).state := by
  unfold Machine.claimRequest
  split
  · exact refl s
  · next c _ =>
    dsimp only
    split
    · exact of_ports rfl rfl
    · exact of_ports rfl rfl

theorem onPort {act : PortId → State → Answer} (hact : ∀ p u, Steady u (act p u).state) (m : Master) (port : Byte)
    (s : State) : Steady s (onPort m port act s).state := by
  unfold Machine.onPort
  split
  · exact refl s
  · split
    · exact hact _ s
    · exact refl s

theorem turnOn (p : PortId) (s : State) : Steady s (turnOn p s).state := by
  unfold Machine.turnOn
  split
  · exact modPort p (fun _ => by rfl) s
  all_goals exact refl s

theorem enterOff (p : PortId) (s : State) : Steady s (enterOff p s) := modPort p (fun _ => by rfl) s

theorem cutExchange (p : PortId) (e : Ending) (s : State) : Steady s (cutExchange p e s) :=
  of_atPort (AtPort.cutExchange p e s) fun r => trigger_cutExchange p r s e

theorem endTest (p : PortId) (a : PortState) (s : State) : Steady s (endTest p a s) :=
  of_atPort (AtPort.endTest p a s) fun r => trigger_endTest p r s a

theorem failPort (f : Pass → Bool) (o : PassOutcome) (p : PortId) (s : State) : Steady s (failPort f o p s) :=
  of_atPort (AtPort.failPort f o p s) fun r => trigger_failPort p r s f o

theorem stopTest (p : PortId) (s : State) : Steady s (stopTest p s) :=
  of_atPort (AtPort.stopTest p s) fun r => trigger_stopTest p r s

theorem turnOff (force : Byte) (p : PortId) (s : State) : Steady s (turnOff force p s).state := by
  have hforce : Steady s (forceOff p s) :=
    ((cutExchange p _ s).trans (failPort _ _ p _)).trans (enterOff p _)
  unfold Machine.turnOff
  split
  · exact refl s
  · split
    · exact refl s
    · exact enterOff p s
    · exact enterOff p s
    · split
      · exact (cutExchange p _ s).trans (enterOff p _)
      · split
        · exact refl s
        · exact hforce.trans (syncStall _)
    · exact ((cutExchange p _ s).trans (endTest p _ _)).trans (enterOff p _)

theorem resume (p : PortId) (s : State) : Steady s (resume p s).state := by
  unfold Machine.resume
  split
  · exact of_eq rfl fun r => trigger_modPort p r s fun _ => rfl
  all_goals exact refl s

theorem setPortConfig (m : Master) (port : Byte) (w : Option PortParams) (s : State) :
    Steady s (setPortConfig m port w s).state := by
  unfold Machine.setPortConfig
  split
  · exact refl s
  · exact refl s
  · split
    · exact refl s
    · split
      · exact refl s
      · split
        · exact refl s
        · exact of_eq rfl fun r => trigger_modPort _ r s fun _ => rfl

theorem readCounters (p : PortId) (s : State) : Steady s (readCounters p s).state := modPort p (fun _ => by rfl) s

theorem startTest (m : Master) (params : TestParams) (p : PortId) (s : State) :
    Steady s (startTest m params p s).state := by
  unfold Machine.startTest
  dsimp only
  split
  · exact refl s
  · split
    · exact refl s
    · split
      · exact refl s
      · split
        · exact refl s
        · split
          · exact refl s
          · exact of_eq rfl fun r => trigger_modPort p r s fun _ => rfl

theorem stopTestAt (p : PortId) (s : State) : Steady s (stopTestAt p s).state := by
  unfold Machine.stopTestAt
  split
  · exact stopTest p s
  · exact refl s

theorem insertAt (p : PortId) (s : State) : Steady s (insertAt p s).state := by
  unfold Machine.insertAt
  split
  · split
    · split
      · exact refl s
      · split
        · exact refl s
        · exact of_eq rfl fun r => trigger_modPort p r s fun _ => rfl
    · exact refl s
    · exact refl s
  · exact refl s

/-! #### Passes, links and SCAN_RESET (chapters 3 and 11) -/

theorem setRepeats (m : Master) (v : Byte) (s : State) : Steady s (setRepeats m v s).state := by
  unfold Machine.setRepeats
  split
  · exact of_ports rfl rfl
  · exact refl s

theorem submitPass (m : Master) (r : SubmitParams) (k : Nat) (s : State) :
    Steady s (submitPass m r k s).state := by
  have hadmit : ∀ p x, Steady s (admitPass p x s) := fun p x =>
    of_eq rfl fun r => by simp [admitPass, trigger_modPort]
  unfold Machine.submitPass
  split
  · exact refl s
  · split
    · exact refl s
    · split
      · exact refl s
      · exact hadmit _ _

theorem abortPass (m : Master) (t : Byte) (s : State) : Steady s (abortPass m t s).state := by
  unfold Machine.abortPass
  split
  · exact refl s
  · next p x _ =>
    split
    · exact refl s
    · exact (of_atPort (AtPort.failPass p _ _ s) fun r => trigger_failPass p r _ s _).trans (syncStall _)

theorem queryPass (t : Byte) (s : State) : Steady s (queryPass t s).state := by
  unfold Machine.queryPass
  split <;> exact refl s

theorem fetch (m : Master) (s : State) : Steady s (fetch m s).state := by
  unfold Machine.fetch
  split
  · exact refl s
  · exact of_ports rfl rfl

theorem setNoticeEnable (m : Master) (w : Option Byte) (s : State) : Steady s (setNoticeEnable m w s).state := by
  cases w
  · exact refl s
  · exact of_ports rfl rfl

theorem scanSteps (s : State) : Steady s (scanSteps s) := by
  have htrigger : ∀ q : Port, q.scanReset.trigger = q.trigger := fun q => by
    unfold Port.scanReset
    split <;> rfl
  unfold Machine.scanSteps
  extract_lets s1 s2
  have h1 : Steady s s1 := failPasses _ _ s
  have h2 : Steady s1 s2 := atPorts stopTest s1
  exact (h1.trans h2).trans (eachPort (fun p u => modPort p htrigger u) s2)

theorem scanReset (m : Master) (s : State) : Steady s (scanReset m s).state := by
  have hdone : Steady s (Machine.syncStall (Machine.scanSteps s)) := (scanSteps s).trans (syncStall _)
  unfold Machine.scanReset
  split
  · dsimp only
    exact hdone
  · exact refl s

/-! #### LINK_RESET up to its HOLD (R187) -/

theorem endTestOf (m : Master) (p : PortId) (s : State) : Steady s (endTestOf m p s) := by
  unfold Machine.endTestOf
  split
  · exact ite _ (endTest p _ s) (refl s)
  · exact refl s

theorem resetClaim (m : Master) (c : ClaimId) (s : State) : Steady s (resetClaim m c s) := by
  unfold Machine.resetClaim
  dsimp only
  split
  · exact of_ports rfl rfl
  · exact of_ports rfl rfl

theorem foldl {α : Type} {f : State → α → State} (hf : ∀ s x, Steady s (f s x)) (xs : List α) (s : State) :
    Steady s (xs.foldl f s) := by
  induction xs generalizing s with
  | nil => exact refl s
  | cons x rest ih => exact (hf s x).trans (ih _)

end Steady

/-- LINK_RESET drops the hold of its master last, by the Permit Unit's own event (R142, R187). -/
theorem permitSound_linkReset (m : Master) {s : State} (hs : PermitSound s) :
    PermitSound (linkReset m s).state := by
  unfold linkReset
  dsimp only
  unfold linkResetSteps
  extract_lets s1 s2 s3 s4
  have h1 : Steady s s1 := Steady.eachPort (fun p => Steady.modPort p (f := Port.purge m) fun _ => rfl) s
  have h2 : Steady s1 s2 := Steady.eachPort (Steady.endTestOf m) s1
  have h3 : Steady s2 s3 := Steady.modLink m _ s2
  have h4 : Steady s3 s4 := Steady.foldl (fun u c => Steady.resetClaim m c u) _ s3
  have hs4 : PermitSound s4 := (((h1.trans h2).trans h3).trans h4).permitSound hs
  have hs5 : PermitSound (changePermit (setHold m false) s4) :=
    permitSound_changePermit (permit_setHold m false) hs4
  exact (Steady.syncStall _).permitSound hs5

theorem permitSound_changeHold (m : Master) (on : Bool) {s : State} (hs : PermitSound s) :
    PermitSound (changeHold m on s).state := permitSound_changePermit (permit_setHold m on) hs

/-! ### Events of the ports (chapters 5, 6 and 10) -/

section Events
variable {s : State}

theorem soundResult_steady {t : State} (hs : PermitSound s) (h : Steady s t) : SoundResult (.next t) :=
  soundResult_next (h.permitSound hs)

theorem soundResult_ite {c : Prop} [Decidable c] {a b : Result} (ha : SoundResult a) (hb : SoundResult b) :
    SoundResult (if c then a else b) := by split <;> assumption

/-- The end of a pulse makes a line INACTIVE (R98). -/
theorem permitSound_release (p : PortId) (hs : PermitSound s) : PermitSound (s.modPort p Port.release) := by
  obtain ⟨hdecided, hdark⟩ := hs
  refine ⟨hdecided, fun hn r => ?_⟩
  rw [State.port_modPort]
  split
  · rfl
  · exact hdark hn r

namespace Steady

theorem endExchange (p : PortId) (e : Ending) (d : List Byte) (s : State) : Steady s (endExchange p e d s) :=
  of_atPort (AtPort.endExchange p e d s) fun r => trigger_endExchange p r s e d

theorem receiveBytes (p : PortId) (bs : List Byte) (s : State) : Steady s (receiveBytes p bs s) :=
  of_atPort (AtPort.receiveBytes p bs s) fun r => trigger_receiveBytes p r s bs

theorem receiveUnframed (p : PortId) (s : State) : Steady s (receiveUnframed p s) :=
  of_atPort (AtPort.receiveUnframed p s) fun r => trigger_receiveUnframed p r s

theorem enterFault (p : PortId) (f : FaultReason) (s : State) : Steady s (enterFault p f s) :=
  of_atPort (AtPort.enterFault p f s) fun r => trigger_enterFault p r s f

theorem faultIfStuck (p : PortId) (s : State) : Steady s (faultIfStuck p s) :=
  of_atPort (AtPort.faultIfStuck p s) fun r => trigger_faultIfStuck p r s

theorem echoDone (p : PortId) (bits : List Bool) (s : State) : Steady s (echoDone p bits s) :=
  of_atPort (AtPort.echoDone p bits s) fun r => trigger_echoDone p r s bits

theorem judgeBlock (p : PortId) (t : Test) (pt : Pattern) (s : State) : Steady s (judgeBlock p t pt s) := by
  unfold Machine.judgeBlock
  extract_lets before after s1
  have h1 : Steady s s1 := modPort p (fun q => trigger_feedChecker [] t _ { q with checker := after }) s
  exact ite _ h1 (h1.trans (of_atPort (AtPort.raiseController p _ s1) fun r => by simp))

end Steady

theorem trigger_countMismatch (b : Bool) (q : Port) : (q.countMismatch b).trigger = q.trigger := by cases b <;> rfl

theorem soundResult_trigPulseEnd (p : PortId) (hs : PermitSound s) : SoundResult (execTrigPulseEnd p s) :=
  soundResult_ite (soundResult_next (permitSound_release p hs)) (soundResult_next hs)

theorem soundResult_tagFrameSent (p : PortId) (hs : PermitSound s) : SoundResult (execTagFrameSent p s) :=
  soundResult_ite (soundResult_steady hs (.modPort p (fun _ => by rfl) s))
    (soundResult_next hs)

theorem soundResult_readBackError (p : PortId) (hs : PermitSound s) : SoundResult (execReadBackError p s) :=
  soundResult_ite (soundResult_steady hs ((Steady.endExchange p _ _ s).trans (.syncStall _))) (soundResult_next hs)

theorem soundResult_returnFrameReceived (p : PortId) (bs : List Byte) (hs : PermitSound s) :
    SoundResult (execReturnFrameReceived p bs s) :=
  soundResult_steady hs ((Steady.receiveBytes p bs s).trans (.syncStall _))

theorem soundResult_returnByteFrameError (p : PortId) (hs : PermitSound s) :
    SoundResult (execReturnByteFrameError p s) :=
  soundResult_ite (soundResult_steady hs ((Steady.receiveUnframed p s).trans (.syncStall _)))
    (soundResult_steady hs (.receiveUnframed p s))

theorem soundResult_returnTimeout (p : PortId) (hs : PermitSound s) : SoundResult (execReturnTimeout p s) :=
  soundResult_ite (soundResult_steady hs ((Steady.endExchange p _ _ s).trans (.syncStall _))) (soundResult_next hs)

theorem soundResult_strayByte (p : PortId) (hs : PermitSound s) : SoundResult (execStrayByte p s) :=
  soundResult_steady hs (.modPort p trigger_stray s)

theorem soundResult_lineStuck (p : PortId) (hs : PermitSound s) : SoundResult (execLineStuck p s) := by
  cases h : (s.port p).watched
  · rw [execLineStuck_unwatched h]
    exact soundResult_next hs
  · rw [execLineStuck_watched h]
    exact soundResult_steady hs ((Steady.enterFault p _ s).trans (.syncStall _))

theorem soundResult_wakePulseEnd (p : PortId) (hs : PermitSound s) : SoundResult (execWakePulseEnd p s) :=
  soundResult_ite (soundResult_steady hs (.modPort p (fun _ => by rfl) s))
    (soundResult_next hs)

theorem soundResult_readyReturn (p : PortId) (bs : List Byte) (hs : PermitSound s) :
    SoundResult (execReadyReturn p bs s) :=
  soundResult_steady hs ((Steady.receiveBytes p bs s).trans (.syncStall _))

theorem soundResult_wakeTimeout (p : PortId) (hs : PermitSound s) : SoundResult (execWakeTimeout p s) :=
  soundResult_ite (soundResult_steady hs ((Steady.enterFault p _ s).trans (.syncStall _))) (soundResult_next hs)

theorem soundResult_intervalTimerExpiry (p : PortId) (hs : PermitSound s) :
    SoundResult (execIntervalTimerExpiry p s) :=
  soundResult_ite
    (soundResult_steady hs ((Steady.dueTestShot p s).trans (.of_eq rfl fun r => trigger_modTest p r _ _)))
    (soundResult_next hs)

theorem soundResult_echoOnSent (p : PortId) (b : Bool) (hs : PermitSound s) :
    SoundResult (execEchoOnSent p b s) := by
  unfold execEchoOnSent
  split
  · exact soundResult_steady hs (.modPort p (fun q => by exact trigger_countMismatch b q) s)
  · exact soundResult_next hs

theorem soundResult_patternByteSent (p : PortId) (hs : PermitSound s) : SoundResult (execPatternByteSent p s) := by
  unfold execPatternByteSent
  split
  · split
    · exact soundResult_steady hs (.modPort p (trigger_feedChecker _ _ _) s)
    · exact soundResult_steady hs (.modPort p (fun _ => by rfl) s)
  · exact soundResult_next hs

theorem soundResult_patternEchoReceived (p : PortId) (b : Byte) (hs : PermitSound s) :
    SoundResult (execPatternEchoReceived p b s) := by
  have hhigh : Steady s (s.modPort p (Port.highWithin (lowTail b))) := .modPort p (fun _ => by rfl) s
  unfold execPatternEchoReceived
  split
  · exact soundResult_steady hs (hhigh.trans (.echoDone p _ _))
  · exact soundResult_next hs

theorem soundResult_echoMissing (p : PortId) (hs : PermitSound s) : SoundResult (execEchoMissing p s) := by
  unfold execEchoMissing
  split
  · exact soundResult_ite (soundResult_steady hs (.echoDone p _ s)) (soundResult_next hs)
  · exact soundResult_next hs

theorem soundResult_patternBlockJudged (p : PortId) (hs : PermitSound s) :
    SoundResult (execPatternBlockJudged p s) := by
  unfold execPatternBlockJudged
  repeat' split
  case isTrue => exact soundResult_steady hs (.judgeBlock p _ _ s)
  all_goals exact soundResult_next hs

theorem soundResult_echoOffSent (p : PortId) (b : Bool) (hs : PermitSound s) :
    SoundResult (execEchoOffSent p b s) := by
  unfold execEchoOffSent
  split
  · exact soundResult_steady hs ((Steady.modPort p (trigger_countMismatch b) s).trans (.endTest p _ _))
  · exact soundResult_next hs

/-! ### The other events -/

theorem soundResult_powerOnReset (a b i s0 s1 s2 : Bool) (s : State) :
    SoundResult (execPowerOnReset a b i s0 s1 s2 s) := by
  refine soundResult_next ⟨by cases i <;> rfl, fun _ r => ?_⟩
  show (State.reset.port r).trigger = false
  revert r
  decide

theorem soundResult_stallTimerExpiry (hs : PermitSound s) : SoundResult (execStallTimerExpiry s) :=
  soundResult_ite
    (soundResult_steady hs (((Steady.failPasses _ _ s).trans (.raiseAll _ _)).trans (.syncStall _)))
    (soundResult_next hs)

theorem soundResult_intlkAsserted (hs : PermitSound s) : SoundResult (execIntlkAsserted s) := by
  unfold execIntlkAsserted
  split
  · exact soundResult_next (permitSound_changePermit (fun _ => by rfl) hs)
  · exact soundResult_next hs
  · exact soundResult_next hs

theorem soundResult_intlkDeasserted (hs : PermitSound s) : SoundResult (execIntlkDeasserted s) := by
  unfold execIntlkDeasserted
  split
  · exact soundResult_next hs
  · exact soundResult_next (permitSound_changePermit (fun _ => by rfl) hs)
  · exact soundResult_next (permitSound_changePermit (fun _ => by rfl) hs)

theorem soundResult_qualificationTimerExpiry (hs : PermitSound s) :
    SoundResult (execQualificationTimerExpiry s) := by
  unfold execQualificationTimerExpiry
  split
  · exact soundResult_ite (soundResult_next (permitSound_changePermit (fun _ => by rfl) hs)) (soundResult_next hs)
  · exact soundResult_next hs
  · exact soundResult_next hs

theorem soundResult_handoverExpiry (c : ClaimId) (hs : PermitSound s) : SoundResult (execHandoverExpiry c s) := by
  unfold execHandoverExpiry
  split
  · exact soundResult_steady hs (.of_ports rfl rfl)
  all_goals exact soundResult_next hs

theorem soundResult_selectAsserted (m : Master) (hs : PermitSound s) : SoundResult (execSelectAsserted m s) :=
  soundResult_ite (soundResult_steady hs (.modLink m _ s)) (soundResult_next hs)

/-! ### Every command, and the period in which none waits -/

theorem soundResult_exec (i : Instr) (hs : PermitSound s) : SoundResult (exec i s) := by
  cases i with
  | powerOnReset a b i s0 s1 s2 => exact soundResult_powerOnReset a b i s0 s1 s2 s
  | decodedCount mv z => exact soundResult_steady hs (.decodedCountSteps mv z s)
  | quadratureError => exact soundResult_steady hs (.quadratureErrorSteps s)
  | stallTimerExpiry => exact soundResult_stallTimerExpiry hs
  | trigPulseEnd p => exact soundResult_trigPulseEnd p hs
  | tagFrameSent p => exact soundResult_tagFrameSent p hs
  | readBackError p => exact soundResult_readBackError p hs
  | returnFrameReceived p bs => exact soundResult_returnFrameReceived p bs hs
  | returnByteFrameError p => exact soundResult_returnByteFrameError p hs
  | returnTimeout p => exact soundResult_returnTimeout p hs
  | strayByte p => exact soundResult_strayByte p hs
  | lineStuck p => exact soundResult_lineStuck p hs
  | wakePulseEnd p => exact soundResult_wakePulseEnd p hs
  | readyReturn p bs => exact soundResult_readyReturn p bs hs
  | wakeTimeout p => exact soundResult_wakeTimeout p hs
  | intervalTimerExpiry p => exact soundResult_intervalTimerExpiry p hs
  | echoOnSent p b => exact soundResult_echoOnSent p b hs
  | patternByteSent p => exact soundResult_patternByteSent p hs
  | patternEchoReceived p b => exact soundResult_patternEchoReceived p b hs
  | echoMissing p => exact soundResult_echoMissing p hs
  | patternBlockJudged p => exact soundResult_patternBlockJudged p hs
  | echoOffSent p b => exact soundResult_echoOffSent p b hs
  | intlkAsserted => exact soundResult_intlkAsserted hs
  | intlkDeasserted => exact soundResult_intlkDeasserted hs
  | qualificationTimerExpiry => exact soundResult_qualificationTimerExpiry hs
  | handoverExpiry c => exact soundResult_handoverExpiry c hs
  | selectAsserted m => exact soundResult_selectAsserted m hs
  | selectDeasserted m b => exact soundResult_steady hs (.modLink m _ s)
  | unknownRequestCode m c ps => exact soundResult_requestNotTaken m _ _ hs
  | requestBadCheck m c ps k => exact soundResult_requestNotTaken m _ _ hs
  | requestBadLength m c n ps => exact soundResult_requestNotTaken m _ _ hs
  | putBlade m im => exact soundResult_steadyRequest (Steady.putBlade m im) hs
  | dropBlade m b => exact soundResult_steadyRequest (Steady.dropBlade m b) hs
  | readBlade m sel v => exact soundResult_steadyRequest (Steady.readBlade sel v) hs
  | openPlan m => exact soundResult_steadyRequest (Steady.openPlan m) hs
  | activatePlan m => exact soundResult_steadyRequest (Steady.activatePlan m) hs
  | setAngleConfig m w => exact soundResult_steadyRequest (Steady.setAngleConfig m w) hs
  | setAdapt m w => exact soundResult_steadyRequest (Steady.setAdapt m w) hs
  | resetCorrection m k b => exact soundResult_steadyRequest (Steady.resetCorrection m k b) hs
  | setPermitConfig m w => exact soundResult_steadyRequest (Steady.setPermitConfig m w) hs
  | claim m n => exact soundResult_steadyRequest (Steady.claimRequest _ m n) hs
  | release m n => exact soundResult_steadyRequest (Steady.claimRequest _ m n) hs
  | take m n => exact soundResult_steadyRequest (Steady.claimRequest _ m n) hs
  | decline m n => exact soundResult_steadyRequest (Steady.claimRequest _ m n) hs
  | portOn m q => exact soundResult_steadyRequest (Steady.onPort Steady.turnOn m q) hs
  | portOff m q f => exact soundResult_steadyRequest (Steady.onPort (Steady.turnOff f) m q) hs
  | resumePort m q => exact soundResult_steadyRequest (Steady.onPort Steady.resume m q) hs
  | setPortConfig m q w => exact soundResult_steadyRequest (Steady.setPortConfig m q w) hs
  | readPortCounters m q => exact soundResult_steadyRequest (Steady.onPort Steady.readCounters m q) hs
  | startTest m q t => exact soundResult_steadyRequest (Steady.onPort (Steady.startTest m t) m q) hs
  | stopTest m q => exact soundResult_steadyRequest (Steady.onPort Steady.stopTestAt m q) hs
  | insertError m q => exact soundResult_steadyRequest (Steady.onPort Steady.insertAt m q) hs
  | repeatNext m v => exact soundResult_steadyRequest (Steady.setRepeats m v) hs
  | submitPass m r => exact soundResult_steadyRequest (Steady.submitPass m r _) hs
  | abortPass m t => exact soundResult_steadyRequest (Steady.abortPass m t) hs
  | queryPass m t => exact soundResult_steadyRequest (Steady.queryPass t) hs
  | hold m => exact soundResult_request (fun _ => permitSound_changeHold m true) hs
  | unhold m => exact soundResult_request (fun _ => permitSound_changeHold m false) hs
  | fetch m => exact soundResult_steadyRequest (Steady.fetch m) hs
  | clearNotices m k => exact soundResult_steadyRequest (fun _ => .of_ports rfl rfl) hs
  | setNoticeEnable m w => exact soundResult_steadyRequest (Steady.setNoticeEnable m w) hs
  | readStatus m => exact soundResult_steadyRequest (fun _ => .of_ports rfl rfl) hs
  | scanReset m => exact soundResult_steadyRequest (Steady.scanReset m) hs
  | linkReset m => exact soundResult_request (fun _ => permitSound_linkReset m) hs

theorem Steady.passTime (s : State) : Steady s (passTime s) := by
  refine ⟨rfl, rfl, fun _ r => ?_⟩
  obtain ⟨run, left, h⟩ := Port.watchLine_frame (s.port r) ((s.port r).drivesLow || Config.lineLow s.choices r.val)
  rw [port_passTime, Port.tick, h]
  rfl

theorem Steady.tick (s : State) : Steady s (tick s) :=
  tick_keeps (P := Steady s) (fun t h => h.trans (Steady.passTime t)) (fun p t h => h.trans (Steady.faultIfStuck p t))
    (fun _ _ h => h.trans (.of_ports rfl rfl)) (fun t h => h.trans (Steady.syncStall t)) (Steady.refl s)

theorem soundResult_step (hs : PermitSound s) : SoundResult (step s) := by
  unfold step
  split
  · exact soundResult_steady hs (.tick s)
  · next i rest _ =>
    have hrest : Steady s { s with pending := rest } := .of_ports rfl rfl
    exact soundResult_exec i (hrest.permitSound hs)

end Events

/-- Settles O7: the events of the Permit Unit decide the permit anew and its loss darkens every line; whatever else
happens drives a line under the permit only. -/
theorem stepKeepsThePermitSound : Obligations.StepKeepsThePermitSound := by
  intro s t hs h
  exact soundResult_step hs t h

end Sys2Proof.TriggerLines

/-! The ends of trigger pulses and tag frames, stray bytes, and the bits of a byte on a head link (R98, R104, R114,
R115, R121, R122). -/

namespace Sys2Proof.LineEvents

open Sys2Proof.Machine

/-! ### Two updates of a port -/

theorem modPort_congr {s : State} {p : PortId} {f g : Port → Port} (h : f (s.port p) = g (s.port p)) :
    s.modPort p f = s.modPort p g := congrArg (s.setPort p) h

theorem modPort_eq_self {s : State} {p : PortId} {f : Port → Port} (h : f (s.port p) = s.port p) :
    s.modPort p f = s := by rw [State.modPort, h, State.setPort_port]

/-! ### TRIG_PULSE_END (R98) -/

section Events
variable {p : PortId} {s : State}

theorem exec_trigPulseEnd_out (h : (s.port p).pulse = .running 0) :
    exec (.trigPulseEnd p) s = .next (s.modPort p Port.release) := if_pos (Timer.isOut_iff.mpr h)

theorem exec_trigPulseEnd_early (h : (s.port p).pulse ≠ .running 0) : exec (.trigPulseEnd p) s = .next s :=
  if_neg fun hout => h (Timer.isOut_iff.mp hout)

/-! ### STRAY_BYTE (R122) -/

theorem inPattern_eq_false {q : Port} (h : ∀ y, q.test = some y → y.mode.fires = true) : q.inPattern = false := by
  cases ht : q.test with
  | none => simp [Port.inPattern, ht]
  | some y => simp [Port.inPattern, ht, h y ht]

theorem stray_counted {q : Port} (hq : q.state = .ready ∨ q.state = .test) (hex : q.exchange = none)
    (hp : q.inPattern = false) :
    q.stray = { q.highWithin 10 with linkErrors := saturate 255 q.linkErrors } := by
  rcases hq with hq | hq <;> simp [Port.stray, hq, hex, hp]

theorem stray_inPattern {q : Port} (hp : q.inPattern = true) : q.stray = q := by simp [Port.stray, hp]

/-! ### TAG_FRAME_SENT (R114, R115) -/

theorem exec_tagFrameSent_sent {ex : Exchange} (hex : (s.port p).exchange = some ex) (hp : ex.phase = .sending)
    (ht : ex.sendTimer = .running 0) :
    exec (.tagFrameSent p) s = .next (s.modPort p fun q => { q.seenHigh with exchange := some ex.await }) := by
  have hsent : (s.port p).exchange.any Exchange.isSent = true := by simp [hex, Exchange.isSent_iff, hp, ht]
  refine (if_pos hsent).trans (congrArg Host.Outcome.next (modPort_congr ?_))
  simp [hex]

theorem exec_tagFrameSent_early {ex : Exchange} (hex : (s.port p).exchange = some ex)
    (h : ex.phase ≠ .sending ∨ ex.sendTimer ≠ .running 0) : exec (.tagFrameSent p) s = .next s := by
  refine if_neg fun hsent => ?_
  obtain ⟨hp, ht⟩ : ex.phase = .sending ∧ ex.sendTimer = .running 0 := by
    simpa [hex, Exchange.isSent_iff] using hsent
  exact h.elim (· hp) (· ht)

/-- Beside the wake pulse and the bytes of a PATTERN test only the exchange drives the line. -/
theorem drivesLow_exchange {q : Port} {ex : Exchange} (hex : q.exchange = some ex) (hw : q.wakePulse = .stopped)
    (ht : ∀ y, q.test = some y → y.mode.fires = true) :
    q.drivesLow = sendsLow ex.frame ex.stopBits ex.bitTime ex.sendTimer := by
  have hquiet : (q.test.any fun t => t.mode.sendsLow q.cfg) = false := by
    cases hy : q.test with
    | none => rfl
    | some y =>
      have hfires := ht y hy
      cases hm : y.mode with
      | shot => simp [TestMode.sendsLow, hm]
      | sweep => simp [TestMode.sendsLow, hm]
      | pattern pt => simp [TestMode.fires, hm] at hfires
  rw [Port.drivesLow, hquiet]
  simp [hex, hw, Timer.isRunning]

end Events

/-! ### A byte as it is sent (R104) -/

/-- Start bit, data bits, stop bit, and the released line behind it. -/
theorem getD_byteLevels (b : Byte) (j : Nat) :
    (!(byteLevels b true).getD j true) = (decide (j = 0) || (decide (j ≤ 8) && !b.getLsbD (j - 1))) := by
  match j with
  | 0 => rfl
  | 1 | 2 | 3 | 4 | 5 | 6 | 7 | 8 | 9 => simp [byteLevels, bitsOfByte, List.range, List.range.loop]
  | k + 10 => simp [byteLevels, bitsOfByte, List.range, List.range.loop]

theorem bitEdge_mono {j k bitTime : Nat} (h : j ≤ k) : bitEdge j bitTime ≤ bitEdge k bitTime :=
  Nat.div_le_div_right (Nat.mul_le_mul_right bitTime h)

/-- Bytes sent back to back: the time left says which byte goes out, and where in it the period lies. -/
theorem sendsLow_inByte {bytes : List Byte} {stopBits bitTime i t : Nat} {b : Byte} (hb : bytes[i]? = some b)
    (ht : t < byteTime stopBits bitTime) :
    sendsLow bytes stopBits bitTime
        (.running (bytes.length * byteTime stopBits bitTime - (i * byteTime stopBits bitTime + t)))
      = !levelAt (byteLevels b true) bitTime t := by
  generalize hw : byteTime stopBits bitTime = whole at ht ⊢
  obtain ⟨hi, -⟩ := List.getElem?_eq_some_iff.mp hb
  have hroom : (i + 1) * whole ≤ bytes.length * whole := Nat.mul_le_mul_right whole hi
  have hgone : bytes.length * whole - (bytes.length * whole - (i * whole + t)) = i * whole + t := by
    rw [Nat.succ_mul] at hroom
    omega
  have hdiv : (i * whole + t) / whole = i := by
    rw [Nat.mul_comm, Nat.mul_add_div (by omega), Nat.div_eq_of_lt ht, Nat.add_zero]
  have hmod : (i * whole + t) % whole = t := by rw [Nat.mul_comm, Nat.mul_add_mod, Nat.mod_eq_of_lt ht]
  simp [sendsLow, hw, hgone, hdiv, hmod, hb]

/-! ### A byte as it is received (R104) -/

/-- Bit `k` of the byte whose data bits are given. -/
theorem getLsbD_byteOfBits {k : Nat} (hk : k < 8) (bits : List Bool) :
    (byteOfBits bits).getLsbD k = bits.getD k false := by
  induction bits generalizing k with
  | nil => simp [byteOfBits]
  | cons b rest ih =>
    cases k with
    | zero => cases b <;> simp [byteOfBits]
    | succ k =>
      have hk' : k < 8 := by omega
      cases b <;> simpa [byteOfBits, hk, BitVec.getLsbD_eq_getElem hk'] using ih hk'

/-- The samples of a byte whose edges lie as R104 sets them are its levels. -/
theorem samplesOf_byteLevels (b : Byte) (stop : Bool) {bitTime : Nat} (h : 32 ≤ bitTime) :
    samplesOf bitTime (levelAt (byteLevels b stop) bitTime) = byteLevels b stop := by
  have hsample : ∀ j, levelAt (byteLevels b stop) bitTime (bitMiddle j bitTime) = (byteLevels b stop).getD j true :=
    fun j => levelAt_between (bitMiddle_between j h).1 (bitMiddle_between j h).2
  simp only [samplesOf, hsample]
  simp [byteLevels, bitsOfByte, List.range, List.range.loop]

/-- A line high in the middle of the start bit is a glitch. -/
theorem ofSamples_glitch {bitTime : Nat} {level : Nat → Bool} (h : level (bitMiddle 0 bitTime) = true) :
    Reception.ofSamples (samplesOf bitTime level) = .glitch := by
  simp [samplesOf, List.range, List.range.loop, h, Reception.ofSamples]

/-- Else the samples are the data bits of a byte and its stop bit. -/
theorem ofSamples_byte {bitTime : Nat} {level : Nat → Bool} (h : level (bitMiddle 0 bitTime) = false) :
    ∃ b, Reception.ofSamples (samplesOf bitTime level) = .byte b (level (bitMiddle 9 bitTime))
      ∧ ∀ k, k < 8 → b.getLsbD k = level (bitMiddle (k + 1) bitTime) := by
  refine ⟨byteOfBits ((List.range 8).map fun k => level (bitMiddle (k + 1) bitTime)), ?_, fun k hk => ?_⟩
  · simp [samplesOf, List.range, List.range.loop, h, Reception.ofSamples]
  · rw [getLsbD_byteOfBits hk]
    simp [hk]

/-! ### The statement -/

/-- Settles O42: each clause by the equation of its event, or of the line, above. -/
theorem pulseStrayAndFrameEvents : Obligations.PulseStrayAndFrameEvents := by
  intro p s
  refine ⟨exec_trigPulseEnd_out, exec_trigPulseEnd_early, fun hq hex ht => ?_, fun y hy hf => ?_,
    fun ex hex h => exec_tagFrameSent_early hex h, fun ex hex hp ht => exec_tagFrameSent_sent hex hp ht,
    fun ex hex hw ht => drivesLow_exchange hex hw ht, ?_, ?_, fun b stop bitTime h => ?_, receive_glitch p s⟩
  · exact congrArg Host.Outcome.next (modPort_congr (stray_counted hq hex (inPattern_eq_false ht)))
  · exact congrArg Host.Outcome.next (modPort_eq_self (stray_inPattern (by simp [Port.inPattern, hy, hf])))
  · intro bytes stopBits bitTime i j t b edge whole hb hj hlo hhi
    have hlast : edge (j + 1) ≤ whole := bitEdge_mono hj
    refine (sendsLow_inByte hb (Nat.lt_of_lt_of_le hhi hlast)).trans ?_
    rw [levelAt_between hlo hhi, getD_byteLevels]
  · intro bitTime level seen
    have hstart : bitMiddle 0 bitTime = bitTime / 32 := by simp [bitMiddle]
    rw [← hstart]
    exact ⟨ofSamples_glitch, ofSamples_byte⟩
  · rw [samplesOf_byteLevels b stop (by omega), ofSamples_byteLevels]

end Sys2Proof.LineEvents

/-! Slips and direction changes at a Trigger Unit: the shots skipped by a jump, the pass opened where it lands, and the
close of a reversed revolution (R84, R87, R91 to R93, R96, R97). -/

namespace Sys2Proof.TriggerSlips

open Sys2Proof.Machine

/-! ### The shots at or behind an angle (R84) -/

/-- The angle has reached the position of shot `j` of an entry, in its direction. -/
def Reached (e : PlanEntry) (landing j : Nat) : Prop :=
  match e.dir with
  | .forward => e.first + j * e.step ≤ landing
  | .reverse => landing ≤ e.last - j * e.step

theorem lt_behind_iff {e : PlanEntry} (hext : e.last = e.first + (e.n - 1) * e.step) (hstep : 1 ≤ e.step)
    (landing : Nat) {j : Nat} (hj : j < e.n) : j < e.behind landing ↔ Reached e landing j := by
  have hle : ∀ d, j < d / e.step + 1 ↔ j * e.step ≤ d := fun d =>
    Nat.lt_succ_iff.trans (Nat.le_div_iff_mul_le hstep)
  cases hd : e.dir with
  | forward =>
    have hdist := hle (landing - e.first)
    simp only [PlanEntry.behind, Reached, hd]
    split <;> omega
  | reverse =>
    have hdist := hle (e.last - landing)
    have hroom : j * e.step ≤ (e.n - 1) * e.step := Nat.mul_le_mul_right e.step (by omega)
    simp only [PlanEntry.behind, Reached, hd]
    split <;> omega

theorem behind_le (e : PlanEntry) (landing : Nat) : e.behind landing ≤ e.n := by
  unfold PlanEntry.behind
  cases e.dir <;> dsimp only <;> split <;> omega

/-- The shots at or behind an angle are those with an index below `k`. -/
def Behind (landing : Nat) (e : PlanEntry) (k : Nat) : Prop :=
  e.last = e.first + (e.n - 1) * e.step ∧ 1 ≤ e.step ∧ k ≤ e.n
    ∧ ∀ j, j < e.n → (j < k ↔ Reached e landing j)

theorem behind_eq {landing k : Nat} {e : PlanEntry} (h : Behind landing e k) : e.behind landing = k := by
  obtain ⟨hext, hstep, hk, hbelow⟩ := h
  have hagree : ∀ j, j < e.n → (j < e.behind landing ↔ j < k) := fun j hj =>
    (lt_behind_iff hext hstep landing hj).trans (hbelow j hj).symm
  have hle := behind_le e landing
  rcases Nat.lt_trichotomy (e.behind landing) k with hlt | heq | hgt
  · have := (hagree _ (by omega)).mpr hlt
    omega
  · exact heq
  · have := (hagree k (by omega)).mp hgt
    omega

/-! ### Marking (R91) -/

theorem markSlip_eq (p : PortId) (s : State) :
    markSlip p s = s.modPort p fun q =>
      { q with queue := q.queue.map fun x =>
          if q.plan.any (·.tag == x.tag) then
            { x with
              marks := { x.marks with slipped := true }
              flags := { x.flags with slipped := x.flags.slipped || x.state == .opened } }
          else x } := by
  have hmark : ∀ x : Pass,
      (if x.state == .opened then x.slipSeen else { x with marks := { x.marks with slipped := true } })
        = { x with
            marks := { x.marks with slipped := true }
            flags := { x.flags with slipped := x.flags.slipped || x.state == .opened } } := fun x => by
    cases x.state == .opened <;> simp [Pass.slipSeen]
  simp only [markSlip, hmark, Port.findEntry, List.find?_isSome, List.any_eq_true]

/-- Whether an entry's pass is in a state goes by the tags and the states of the queue. -/
theorem entryIn_map {g : Pass → Pass} (htag : ∀ x, (g x).tag = x.tag) (hstate : ∀ x, (g x).state = x.state)
    (q : Port) : ({ q with queue := q.queue.map g } : Port).entryIn = q.entryIn := by
  funext st e
  simp only [Port.entryIn, Port.findPass, List.find?_map, Function.comp_def, htag]
  cases q.queue.find? (·.tag == e.tag) <;> simp [hstate]

theorem openEntry_markSlip (p : PortId) (s : State) :
    ((markSlip p s).port p).openEntry = (s.port p).openEntry := by
  rw [markSlip_eq, State.port_modPort_self, Port.openEntry, entryIn_map]
  · rfl
  all_goals
    intro x
    split <;> rfl

theorem findEntry_markSlip (p : PortId) (t : Tag) (s : State) :
    ((markSlip p s).port p).findEntry t = (s.port p).findEntry t := by simp [markSlip, Port.findEntry]

/-! ### Skipping (R92, R96) -/

/-- The shots of an entry with an index below `k` are taken as passed, the pass marked SKIPPED when one of them had not
been; with `opens` the pass also becomes OPEN, marked SLIPPED (R87, R92). -/
def skipped (p : PortId) (opens : Bool) (e : PlanEntry) (k : Nat) (u : State) : State :=
  u.modPort p fun q =>
    { q with
      queue := q.queue.map fun x =>
        if x.tag = e.tag then
          { x with
            state := if opens then .opened else x.state
            marks := { x.marks with
              slipped := x.marks.slipped || opens, skipped := x.marks.skipped || decide (e.next < k) }
            flags := { x.flags with
              slipped := x.flags.slipped || opens, skipped := x.flags.skipped || decide (e.next < k) } }
        else x
      plan := q.plan.map fun f => if f.tag = e.tag then { f with next := max e.next k } else f }

/-- The revolution is closed when no shot of the entry is left (R96). -/
def closedIfDone (p : PortId) (e : PlanEntry) (k : Nat) (u : State) : State :=
  if max e.next k = e.n then closeRevolution p e.tag u else u

/-- A planned pass in whose extent the angle landed opens, marked SLIPPED (R87). -/
def landed (x : Pass) : Pass := { x.slipSeen with state := .opened }

section Skip
variable {p : PortId} {e : PlanEntry} {k landing : Nat} {u : State}

theorem skipped_open (p : PortId) (e : PlanEntry) (k : Nat) (u : State) :
    modEntry p e.tag (fun f => { f with next := max e.next k })
        (if e.next < max e.next k then modPass p e.tag Pass.skipSeen u else u)
      = skipped p false e k u := by
  by_cases h : e.next < k
  · have hmax : e.next < max e.next k := by omega
    simp [hmax, h, modEntry, modPass, skipped, Pass.skipSeen]
  · have hmax : ¬ e.next < max e.next k := by omega
    simp [hmax, h, modEntry, skipped]

theorem skipTo_eq (he : (u.port p).findEntry e.tag = some e) (hk : e.behind landing = k) :
    skipTo p e.tag landing u = closedIfDone p e k (skipped p false e k u) := by
  simp only [skipTo, he, hk, ← skipped_open]
  rfl

theorem skipped_landed (p : PortId) (e : PlanEntry) (k : Nat) (u : State) :
    skipped p false e k (modPass p e.tag landed u) = skipped p true e k u := by
  simp only [skipped, modPass, State.modPort_modPort, List.map_map]
  congr 1
  funext q
  congr 1
  refine List.map_congr_left fun x _ => ?_
  by_cases hx : x.tag = e.tag <;> simp [hx, landed, Pass.slipSeen]

end Skip

/-! ### A jump (R87, R92) -/

/-- First the OPEN pass skips (R92). -/
def skipOpen (p : PortId) (landing : Nat) (s : State) : State :=
  match (s.port p).openEntry with
  | some e => skipTo p e.tag landing s
  | none => s

/-- Whether the angle landed in the extent of a PLANNED pass in the recognised direction (R87). -/
def landsIn (q : Port) (dir : Direction) (landing : Nat) (f : PlanEntry) : Bool :=
  q.entryIn .planned f && decide (f.dir = dir) && f.holds landing

/-- Then, with no pass OPEN, the PLANNED pass in whose extent the angle landed opens (R87). -/
def openLanded (p : PortId) (landing : Nat) (u : State) : State :=
  match (u.port p).openEntry with
  | some _ => u
  | none =>
    match (u.port p).plan.find? (landsIn (u.port p) u.angle.direction landing) with
    | some f => skipTo p f.tag landing (modPass p f.tag landed u)
    | none => u

theorem slipAtTrigger_jump (p : PortId) (s : State) :
    slipAtTrigger true p s = openLanded p s.angle.value (skipOpen p s.angle.value (markSlip p s)) := rfl

theorem landsIn_iff {q : Port} {dir : Direction} {landing : Nat} {f : PlanEntry} :
    landsIn q dir landing f = true
      ↔ q.entryIn .planned f = true ∧ f.dir = dir ∧ f.first ≤ landing ∧ landing ≤ f.last := by
  simp [landsIn, PlanEntry.holds, within, and_assoc]

/-- What is found is the only element that meets the test. -/
theorem find?_eq_some_of_unique {α : Type} {test : α → Bool} {l : List α} {a : α} (ha : a ∈ l)
    (h : ∀ b ∈ l, test b = true ↔ b = a) : l.find? test = some a := by
  cases hf : l.find? test with
  | none => exact absurd ((h a ha).mpr rfl) (List.find?_eq_none.mp hf a ha)
  | some b => rw [(h b (List.mem_of_find?_eq_some hf)).mp (List.find?_some hf)]

section Jump
variable {p : PortId} {s u : State} {landing k : Nat} {e f : PlanEntry}

theorem skipOpen_markSlip_none (h : (s.port p).openEntry = none) :
    skipOpen p landing (markSlip p s) = markSlip p s := by
  simp [skipOpen, openEntry_markSlip, h]

theorem skipOpen_markSlip_some (h : (s.port p).openEntry = some e) (he : (s.port p).findEntry e.tag = some e)
    (hk : e.behind landing = k) :
    skipOpen p landing (markSlip p s) = closedIfDone p e k (skipped p false e k (markSlip p s)) := by
  simp only [skipOpen, openEntry_markSlip, h]
  exact skipTo_eq ((findEntry_markSlip p e.tag s).trans he) hk

theorem openLanded_nowhere
    (h : (u.port p).openEntry ≠ none
      ∨ ∀ f ∈ (u.port p).plan, ¬ landsIn (u.port p) u.angle.direction landing f = true) :
    openLanded p landing u = u := by
  unfold openLanded
  split
  · rfl
  · next hopen =>
    have hnone := List.find?_eq_none.mpr (h.resolve_left fun hne => hne hopen)
    rw [hnone]

theorem openLanded_lands (hopen : (u.port p).openEntry = none) (hf : f ∈ (u.port p).plan)
    (honly : ∀ g ∈ (u.port p).plan, landsIn (u.port p) u.angle.direction landing g = true ↔ g = f)
    (he : (u.port p).findEntry f.tag = some f) (hk : f.behind landing = k) :
    openLanded p landing u = closedIfDone p f k (skipped p true f k u) := by
  simp only [openLanded, hopen, find?_eq_some_of_unique hf honly]
  rw [skipTo_eq (by simpa [modPass, Port.findEntry] using he) hk, skipped_landed]

end Jump

/-! ### The statement -/

/-- A slip and the skip of the OPEN pass leave the angle. -/
theorem angle_skipOpen (p : PortId) (landing : Nat) (s : State) :
    (skipOpen p landing (markSlip p s)).angle = s.angle := by
  unfold skipOpen
  split
  · exact (AtPort.skipTo p _ _ _).angle
  · rfl

theorem reverseAtTrigger_some {p : PortId} {s : State} {e : PlanEntry} (h : (s.port p).openEntry = some e) :
    reverseAtTrigger p s = closeRevolution p e.tag (modPass p e.tag Pass.reverseSeen s) := by
  simp only [reverseAtTrigger, h]

theorem reverseAtTrigger_none {p : PortId} {s : State} (h : (s.port p).openEntry = none) :
    reverseAtTrigger p s = s := by simp only [reverseAtTrigger, h]

/-- Settles O39: the slip marks, then the OPEN pass skips, then a pass opens where the angle landed. -/
theorem slipsAndReversalsAtTheTriggerUnit : Obligations.SlipsAndReversalsAtTheTriggerUnit := by
  intro p s landing marked behind skippedTo left landsInOf
  have hmarked : marked = markSlip p s := (markSlip_eq p s).symm
  refine ⟨hmarked.symm, fun u hu => ?_, fun e he => ?_, reverseAtTrigger_none⟩
  · have hu' : skipOpen p landing (markSlip p s) = u := by
      rcases hu with ⟨hnone, rfl⟩ | ⟨e, k, hsome, he, hk, rfl⟩
      · exact (skipOpen_markSlip_none hnone).trans hmarked.symm
      · rw [hmarked]
        exact skipOpen_markSlip_some hsome he (behind_eq hk)
    have hdir : u.angle.direction = s.angle.direction := by rw [← hu', angle_skipOpen]
    have hlands : ∀ f, landsIn (u.port p) u.angle.direction landing f = true ↔ landsInOf u f := fun f => by
      rw [landsIn_iff, hdir]
    rw [slipAtTrigger_jump, hu']
    refine ⟨fun hno => openLanded_nowhere (hno.imp_right fun hno f hf hin => hno f hf ((hlands f).mp hin)),
      fun f k hopen hf honly he hk => ?_⟩
    exact openLanded_lands hopen hf (fun g hg => (hlands g).trans (honly g hg)) he (behind_eq hk)
  · rw [reverseAtTrigger_some he, RevolutionEnd.modPass_eq]
    rfl

end Sys2Proof.TriggerSlips

/-! A decoded count at a Trigger Unit: which pass fires, the shot that it fires, its hand-off, and the close of the
revolution at the last shot (R86, R88 to R90, R95, R98, R100, R119). -/

namespace Sys2Proof.Firing

open Sys2Proof.Machine Sys2Proof.LineEvents Sys2Proof.RevolutionEnd Sys2Proof.TriggerSlips

/-! ### Which pass fires (R86, R88, R99) -/

section Count
variable {d : Direction} {p : PortId} {s : State} {e : PlanEntry}

theorem countAtTrigger_barred (h : s.permit.permit = .notPermitted ∨ s.angle.direction ≠ d) :
    countAtTrigger d p s = s := by
  rcases h with h | h <;> simp [countAtTrigger, h]

theorem countAtTrigger_open_off (ho : (s.port p).openEntry = some e)
    (h : e.dir ≠ d ∨ s.angle.value ≠ e.position e.next) : countAtTrigger d p s = s := by
  rcases h with h | h <;> simp [countAtTrigger, ho, h]

theorem countAtTrigger_open_fires (hp : s.permit.permit = .permitted) (hd : s.angle.direction = d)
    (ho : (s.port p).openEntry = some e) (hdir : e.dir = d) (hn : e.next < e.n)
    (hv : s.angle.value = e.position e.next) : countAtTrigger d p s = fire p e.tag s := by
  simp only [countAtTrigger, hp, hd, ho, hdir, hn, hv, and_self, ↓reduceIte]

/-- An entry whose pass opens at a count: PLANNED, in the direction of the count, its shot 0 reached (R86). -/
def opensAt (d : Direction) (angle : Nat) (q : Port) (f : PlanEntry) : Bool :=
  q.entryIn .planned f && decide (f.dir = d ∧ angle = f.position 0)

theorem opensAt_iff {angle : Nat} {q : Port} {f : PlanEntry} :
    opensAt d angle q f = true ↔ q.entryIn .planned f = true ∧ f.dir = d ∧ angle = f.position 0 := by
  simp [opensAt]

theorem countAtTrigger_none_off (ho : (s.port p).openEntry = none)
    (h : ∀ f ∈ (s.port p).plan, (s.port p).entryIn .planned f = true → f.dir = d →
      s.angle.value ≠ f.position 0) :
    countAtTrigger d p s = s := by
  have hfind : (s.port p).plan.find? (opensAt d s.angle.value (s.port p)) = none :=
    List.find?_eq_none.mpr fun f hf hopens => by
      obtain ⟨hplanned, hdir, hv⟩ := opensAt_iff.mp hopens
      exact h f hf hplanned hdir hv
  unfold opensAt at hfind
  simp only [countAtTrigger, ho, hfind, ite_self]

theorem countAtTrigger_none_opens (hp : s.permit.permit = .permitted) (hd : s.angle.direction = d)
    (ho : (s.port p).openEntry = none) (he : e ∈ (s.port p).plan)
    (honly : ∀ f ∈ (s.port p).plan, opensAt d s.angle.value (s.port p) f = true ↔ f = e) :
    countAtTrigger d p s = fire p e.tag (modPass p e.tag Pass.opening s) := by
  have hfind := find?_eq_some_of_unique he honly
  unfold opensAt at hfind
  simp only [countAtTrigger, hp, hd, ho, hfind, and_self, ↓reduceIte]

end Count

/-! ### The shot on the port (R88 to R90, R98) -/

/-- A pass of which a shot has fired: OPEN, the shot counted, SLIPPED when the shot is (R86, R88, R90). -/
def shotTaken (slip : Bool) (y : Pass) : Pass :=
  { y with
    state := .opened, fired := y.fired + 1
    marks := { y.marks with slipped := y.marks.slipped || slip }
    flags := { y.flags with slipped := y.flags.slipped || slip } }

/-- A shot of the pass of an entry has fired: the line is driven, the shot taken in the pass, and the entry on its next
shot. -/
def driven (p : PortId) (e : PlanEntry) (slip : Bool) (s : State) : State :=
  s.modPort p fun q =>
    { q with
      trigger := true, pulse := .running (q.cfg.trigWidth * 40)
      queue := q.queue.map fun y => if y.tag = e.tag then shotTaken slip y else y
      plan := q.plan.map fun f =>
        if f.tag = e.tag then { f with next := f.next + 1, fired := f.fired + 1 } else f }

/-- The shot counted in its pass, and marked SLIPPED with SLIP (R88, R90). -/
def counted (slip : Bool) (x : Pass) : Pass := { (if slip then x.slipSeen else x) with fired := x.fired + 1 }

/-- A fired shot up to its hand-off, with the change that it makes in its pass. -/
def stamped (p : PortId) (t : Tag) (count : Pass → Pass) (s : State) : State :=
  modEntry p t (fun f => { f with next := f.next + 1, fired := f.fired + 1 })
    (modPass p t count (s.modPort p Port.drive))

theorem fire_eq {p : PortId} {t : Tag} {x : Pass} {e : PlanEntry} {s : State} (h : s.findPass p t = some x)
    (he : (s.port p).findEntry t = some e) :
    fire p t s =
      let handed := handOff p (passShot s x e) (stamped p t (counted (passShot s x e).slip) s)
      if e.next + 1 = e.n then closeRevolution p t handed else handed := by
  simp only [fire, h, he]
  rfl

section Stamped
variable {p : PortId} {t : Tag} {s : State} {x : Pass} {e : PlanEntry} {slip : Bool}

/-- An earlier change of the pass joins that of the shot. -/
theorem stamped_modPass {f g : Pass → Pass} (hg : ∀ y, (g y).tag = y.tag) :
    stamped p t f (modPass p t g s) = stamped p t (f ∘ g) s := by
  have hcomp : ∀ y : Pass, (if (if y.tag = t then g y else y).tag = t then f (if y.tag = t then g y else y)
      else if y.tag = t then g y else y) = if y.tag = t then f (g y) else y := fun y => by
    by_cases hy : y.tag = t <;> simp [hy, hg]
  simp [stamped, modEntry, modPass, Port.drive, Function.comp_def, hcomp]

/-- What the shot makes of the one pass with its tag is all that it changes in the queue. -/
theorem stamped_eq_driven {count : Pass → Pass} (hd : ((s.port p).queue.map Pass.tag).Nodup)
    (hx : s.findPass p e.tag = some x) (hcount : count x = shotTaken slip x) :
    stamped p e.tag count s = driven p e slip s := by
  have hqueue : ((s.port p).queue.map fun y => if y.tag = e.tag then count y else y)
      = (s.port p).queue.map fun y => if y.tag = e.tag then shotTaken slip y else y :=
    List.map_congr_left fun y hy => by
      split
      · next ht => rw [Port.findPass_unique hd hx hy ht, hcount]
      · rfl
  simp only [stamped, modEntry, modPass, driven, State.modPort_modPort]
  refine modPort_congr ?_
  simp [Port.drive, startMicros, Config.periodsPerMicro, hqueue]

theorem counted_open (ho : x.state = .opened) : counted slip x = shotTaken slip x := by
  cases slip <;> simp [counted, shotTaken, Pass.slipSeen, ← ho]

/-- A pass that opens carries on the SLIPPED mark that its shot shows (R86, R90). -/
theorem counted_opening (hslip : x.marks.slipped = true → slip = true) :
    counted slip x.opening = shotTaken slip x := by
  cases hm : x.marks.slipped
  · have hmarks : x.marks = { x.marks with slipped := false } := by rw [← hm]
    cases slip <;> simp [counted, shotTaken, Pass.slipSeen, Pass.opening, hm, ← hmarks]
  · simp [counted, shotTaken, Pass.slipSeen, Pass.opening, hslip hm]

end Stamped

/-! ### The hand-off (R100, R113, R119) -/

/-- An OVERRUN record counts as flagged and feeds no observation (R50, R119, R128). -/
theorem tally_overrun (p : PortId) (sh : Shot) (y : Pass) :
    y.tally (shotRecord p sh .overrun []) = { y with flagged := y.flagged + 1 } := by
  have hflagged : (shotRecord p sh .overrun []).flagged = true := Bool.or_true _
  have hobserve : observe (shotRecord p sh .overrun []) y.observation = y.observation := by
    have hfeeds : (shotRecord p sh .overrun []).feeds = false := by simp [ShotRecord.feeds, hflagged]
    cases y.observation <;> simp [observe, hfeeds]
  simp [Pass.tally, hflagged, hobserve]

/-- The hand-off of a pass shot: its exchange, the pending slot, or an OVERRUN record (R100, R119). -/
theorem handOff_eq {p : PortId} {sh : Shot} {t : Tag} (hsh : sh.isOf t = true) (s : State) :
    handOff p sh s = match (s.port p).exchange, (s.port p).slot with
      | none, _ => s.modPort p fun q =>
          { q with
            exchange := some
              { shot := sh, frame := sh.frame, sendTimer := q.sendTime 4, phase := .sending, received := []
                timer := .stopped, bitTime := q.cfg.bitTime, stopBits := q.cfg.stopBits, rto := q.cfg.rto } }
      | some _, none => s.modPort p fun q => { q with slot := some sh }
      | some _, some _ =>
          (s.modLink sh.owner (·.written (.shot (shotRecord p sh .overrun [])) 1)).modPort p fun q =>
            { q with queue := q.queue.map fun y => if y.tag = t then { y with flagged := y.flagged + 1 } else y } := by
  unfold handOff
  cases (s.port p).exchange with
  | none => rfl
  | some ex =>
    cases (s.port p).slot with
    | none => rfl
    | some other =>
      dsimp only
      rw [deliver_ofPass hsh, writeRecord_shot, modPass_eq]
      simp only [tally_overrun]

/-- What the close of the revolution needs of the pass and its entry is left by the hand-off. -/
theorem findPass_handOff {p : PortId} {sh : Shot} {t : Tag} (hsh : sh.isOf t = true) {s : State} {y : Pass}
    (h : s.findPass p t = some y) :
    ∃ z, (handOff p sh s).findPass p t = some z ∧ z.owner = y.owner ∧ z.pendingOutcome = y.pendingOutcome := by
  rw [handOff_eq hsh]
  split
  · exact ⟨y, by simpa [State.findPass, Port.findPass] using h, rfl, rfl⟩
  · exact ⟨y, by simpa [State.findPass, Port.findPass] using h, rfl, rfl⟩
  · rw [← modPass_eq]
    exact ⟨_, findPass_modPass_self (f := fun y => { y with flagged := y.flagged + 1 }) h fun _ => rfl, rfl, rfl⟩

theorem plan_handOff {p : PortId} {sh : Shot} {t : Tag} (hsh : sh.isOf t = true) (s : State) :
    ((handOff p sh s).port p).plan = (s.port p).plan := by
  rw [handOff_eq hsh]
  split <;> simp

/-! ### The count that fires, whole -/

section Fires
variable {d : Direction} {p : PortId} {s : State} {x : Pass} {e : PlanEntry}

theorem state_of_openEntry (ho : (s.port p).openEntry = some e) (hx : s.findPass p e.tag = some x) :
    x.state = .opened := by
  have hin : (s.port p).entryIn .opened e = true := List.find?_some ho
  rw [State.findPass] at hx
  simpa [Port.entryIn, hx] using hin

/-- The shot handed off, and at the last one the revolution closed (R88, R95). -/
def shotFired (p : PortId) (x : Pass) (e : PlanEntry) (s : State) : State :=
  let handed := handOff p (passShot s x e) (driven p e (passShot s x e).slip s)
  if e.next + 1 = e.n then closeRevolution p e.tag handed else handed

theorem fire_open (hd : ((s.port p).queue.map Pass.tag).Nodup) (hx : s.findPass p e.tag = some x)
    (he : (s.port p).findEntry e.tag = some e) (ho : x.state = .opened) :
    fire p e.tag s = shotFired p x e s := by
  rw [fire_eq hx he, stamped_eq_driven hd hx (counted_open ho)]
  rfl

theorem fire_opening (hd : ((s.port p).queue.map Pass.tag).Nodup) (hx : s.findPass p e.tag = some x)
    (he : (s.port p).findEntry e.tag = some e) :
    fire p e.tag (modPass p e.tag Pass.opening s) = shotFired p x e s := by
  have hx' : (modPass p e.tag Pass.opening s).findPass p e.tag = some x.opening :=
    findPass_modPass_self hx fun _ => rfl
  have he' : ((modPass p e.tag Pass.opening s).port p).findEntry e.tag = some e := by
    simpa [modPass, Port.findEntry] using he
  have hslip : x.marks.slipped = true → (passShot s x e).slip = true := fun h => by simp [passShot, h]
  have hstamp := (stamped_modPass (p := p) (s := s) (f := counted (passShot s x e).slip) (g := Pass.opening)
    fun _ => rfl).trans (stamped_eq_driven hd hx (counted_opening hslip))
  rw [fire_eq hx' he']
  exact congrArg (fun u => let handed := handOff p (passShot s x e) u
    if e.next + 1 = e.n then closeRevolution p e.tag handed else handed) hstamp

/-- The revolution closed after its last shot drains, or goes on to revolution-end processing (R49, R95). -/
theorem shotFired_last (hx : s.findPass p e.tag = some x) (he : (s.port p).findEntry e.tag = some e)
    (hn : x.pendingOutcome = none) (hlast : e.next + 1 = e.n) :
    let handed := handOff p (passShot s x e) (driven p e (passShot s x e).slip s)
    let after := (handed.modLink x.owner fun l =>
        { l with reserved := l.reserved - (e.n - (e.fired + 1)) }).modPort p fun q =>
      { q with
        plan := q.plan.filter fun f => f.tag != e.tag
        queue := q.queue.map fun y => if y.tag = e.tag then { y with state := .draining } else y }
    shotFired p x e s = if (after.port p).outstanding e.tag then after else revolutionEnd p e.tag after := by
  intro handed after
  have hsh : (passShot s x e).isOf e.tag = true := by simp [Shot.isOf, passShot, Port.findPass_tag hx]
  have htaken : (driven p e (passShot s x e).slip s).findPass p e.tag = some (shotTaken (passShot s x e).slip x) := by
    have h := findPass_modPass_self (f := shotTaken (passShot s x e).slip) hx fun _ => rfl
    simpa [driven, modPass, State.findPass, Port.findPass] using h
  obtain ⟨z, hz, howner, hpending⟩ := findPass_handOff hsh htaken
  have htag : z.tag = e.tag := Port.findPass_tag hz
  have hentry : (handed.port p).findEntry e.tag = some { e with next := e.next + 1, fired := e.fired + 1 } := by
    have h := Port.findEntry_modEntry (f := fun f => { f with next := f.next + 1, fired := f.fired + 1 })
      (fun _ => rfl) p e.tag e.tag s
    rw [he] at h
    rw [Port.findEntry, plan_handOff hsh]
    simpa [driven, modEntry, Port.findEntry] using h
  have hclosed : closed p z { e with next := e.next + 1, fired := e.fired + 1 } handed = after := by
    simp only [closed, modPass_eq, State.modPort_modPort, htag, howner]
    rfl
  have hsettled := closeRevolution_settled (x := z) (htag ▸ hz) (hpending.trans hn) (htag ▸ hentry)
  rw [htag, hclosed] at hsettled
  have hout : (after.port p).outstanding e.tag = (handed.port p).outstanding e.tag := by
    rw [← hclosed, outstanding_closed]
  rw [hout]
  exact (if_pos hlast).trans hsettled

end Fires

/-! ### The statement -/

/-- Settles O38: the count opens the pass that it finds, or takes the OPEN one, and that pass fires. -/
theorem passOpensFiresAndCloses : Obligations.PassOpensFiresAndCloses := by
  intro d p s position
  have hposition : position = PlanEntry.position := rfl
  refine ⟨countAtTrigger_barred, fun e ho h => countAtTrigger_open_off ho (hposition ▸ h),
    fun ho h => countAtTrigger_none_off ho (hposition ▸ h), ?_⟩
  intro x e hp hd hdir hnodup hx he hn hlt hv hwhich slip sh drivenIn handed after
  have hfires : countAtTrigger d p s = shotFired p x e s := by
    rcases hwhich with ho | ⟨ho, hplanned, hnext, honly⟩
    · rw [countAtTrigger_open_fires hp hd ho hdir hlt hv, fire_open hnodup hx he (state_of_openEntry ho hx)]
    · have hin : (s.port p).entryIn .planned e = true := by
        have hx' : (s.port p).findPass e.tag = some x := hx
        simp [Port.entryIn, hx', hplanned]
      have hopens : ∀ f ∈ (s.port p).plan, opensAt d s.angle.value (s.port p) f = true ↔ f = e := fun f hf => by
        rw [opensAt_iff]
        refine ⟨fun ⟨_, hfd, hfv⟩ => honly f hf hfd hfv, ?_⟩
        rintro rfl
        exact ⟨hin, hdir, hnext ▸ hv⟩
      rw [countAtTrigger_none_opens hp hd ho (Port.findEntry_mem he) hopens, fire_opening hnodup hx he]
  have hsh : (passShot s x e).isOf e.tag = true := by simp [Shot.isOf, passShot, Port.findPass_tag hx]
  have hhanded : handOff p (passShot s x e) (driven p e (passShot s x e).slip s) = handed := by
    have hexchange : ((driven p e (passShot s x e).slip s).port p).exchange = (s.port p).exchange := by simp [driven]
    have hslot : ((driven p e (passShot s x e).slip s).port p).slot = (s.port p).slot := by simp [driven]
    rw [handOff_eq hsh, hexchange, hslot]
    simp only [handed]
    cases (s.port p).exchange with
    | none => rfl
    | some ex => cases (s.port p).slot <;> rfl
  have hlast := shotFired_last hx he hn
  rw [hhanded] at hlast
  refine ⟨fun hmore => ?_, fun hend hout => ?_, fun hend hout => ?_⟩
  · rw [hfires, ← hhanded]
    exact if_neg (by omega)
  · rw [hfires, hlast hend]
    exact if_pos hout
  · rw [hfires, hlast hend]
    exact if_neg (Bool.eq_false_iff.mp hout)

end Sys2Proof.Firing

/-! The Edge Tracker at revolution-end processing: when it acts on a blade, and the update of the blade's correction
from a HELD observation (R130 to R134). -/

namespace Sys2Proof.EdgeTracking

open Sys2Proof.Machine Sys2Proof.RevolutionEnd

/-! ### The arithmetic of an update (R131, R132) -/

theorem clampCorrection_eq (i : Int) : clampCorrection i = max (-2048) (min 2047 i) := by
  unfold clampCorrection
  split
  · omega
  · split <;> omega

/-- The clamp changes a sum exactly when it lies outside the correction range (R132). -/
theorem clampCorrection_ne_iff {i : Int} : clampCorrection i ≠ i ↔ i < -2048 ∨ 2047 < i := by
  rw [clampCorrection_eq]
  omega

theorem measuredEdge_eq (d : Direction) (step angle : Nat) (offset : Int) :
    measuredEdge d step angle offset =
      match d with
      | .forward => angle + (offset * step).tdiv 256
      | .reverse => angle - (offset * step).tdiv 256 := by
  cases d <;> rfl

/-! ### When the Edge Tracker acts (R130, R134) -/

/-- What an update asks of the pass revolution, the blade and the Plan Store: the revolution marked neither SLIPPED nor
REVERSED, the blade in TRACK, the adaptation not frozen, the plan ACTIVE (R130, R134). -/
def Acts (x : Pass) (b : Blade) (s : State) : Prop :=
  x.marks.slipped = false ∧ x.marks.reversed = false ∧ b.tracking = .track ∧ s.plan.frozen = false
    ∧ s.plan.state = .active

theorem tracking_ne_fixed {t : Tracking} : t ≠ .fixed ↔ t = .track := by cases t <;> simp

theorem plan_ne_edit {a : PlanState} : a ≠ .edit ↔ a = .active := by cases a <;> simp

section Consult
variable {p : PortId} {x : Pass} {b : Blade} {s : State}

/-- The Edge Tracker's own test, which holds it back, fails exactly where it acts. -/
theorem not_heldBack_iff :
    ¬ (x.marks.slipped || x.marks.reversed || b.tracking == .fixed || s.plan.frozen || s.plan.state == .edit) = true
      ↔ Acts x b s := by
  simp only [Bool.or_eq_true, beq_iff_eq, not_or, Bool.not_eq_true, tracking_ne_fixed, plan_ne_edit, and_assoc, Acts]

theorem consult_heldBack (hb : s.plan.find x.blade = some b) (h : ¬ Acts x b s) : consult p x s = s := by
  simp only [consult, hb]
  exact if_pos (Decidable.not_not.mp (mt not_heldBack_iff.mp h))

theorem consult_empty (hb : s.plan.find x.blade = some b) (h : Acts x b s) (ho : x.observation = .empty) :
    consult p x s = modPass p x.tag (fun y => { y with flags := { y.flags with noEdge := true } }) s := by
  simp only [consult, hb, ho]
  exact if_neg (not_heldBack_iff.mpr h)

theorem consult_held {mark index angle : Nat} {offset : Int} (hb : s.plan.find x.blade = some b) (h : Acts x b s)
    (ho : x.observation = .held index angle offset) (hm : b.mark = some mark) :
    consult p x s = edgeUpdate p x b mark angle offset s := by
  simp only [consult, hb, ho, hm]
  exact if_neg (not_heldBack_iff.mpr h)

end Consult

/-! ### The update (R132, R133) -/

/-- A change of the blade with a number, as the statements write it. -/
theorem modBlade_eq (n : Byte) (f : Blade → Blade) (s : State) :
    modBlade n f s = s.modPlan fun ps =>
      { ps with blades := ps.blades.map fun b => if b.number = n then f b else b } := by simp [modBlade]

/-- The state after an update whose error and unclamped sum are given: the blade's correction and the pass's last edge
update and CLAMPED flag (R132, R133). -/
def updated (p : PortId) (x : Pass) (error sum : Int) (s : State) : State :=
  (s.modPlan fun ps =>
    { ps with blades := ps.blades.map fun y =>
        if y.number = x.blade then { y with correction := max (-2048) (min 2047 sum) } else y }).modPort p fun q =>
    { q with queue := q.queue.map fun y =>
        if y.tag = x.tag then
          { y with
            lastEdge := some ⟨error, max (-2048) (min 2047 sum)⟩
            flags := { y.flags with clamped := y.flags.clamped || decide (sum < -2048 ∨ 2047 < sum) } }
        else y }

theorem edgeUpdate_eq (p : PortId) (x : Pass) (b : Blade) (mark angle : Nat) (offset : Int) (s : State) :
    edgeUpdate p x b mark angle offset s =
      let error := measuredEdge x.dir x.step angle offset - (mark + b.correction)
      updated p x error (b.correction + error / (2 ^ s.plan.gain : Nat)) s := by
  simp only [edgeUpdate, modPass_eq, modBlade_eq, clampCorrection_ne_iff]
  simp only [updated, clampCorrection_eq]

/-! ### The statement -/

/-- Settles O41: the Edge Tracker acts under `Acts` alone, and its update is the arithmetic of R131 and R132. -/
theorem edgeUpdateMovesTheCorrection : Obligations.EdgeUpdateMovesTheCorrection := by
  refine ⟨fun p x b s hb => ⟨consult_heldBack hb, fun h ho => ?_⟩, ?_⟩
  · rw [consult_empty hb h ho, modPass_eq]
  · intro p x b mark index angle offset s hb htrack hfrozen hactive hslipped hreversed ho hm term error sum corrected
    have hacts : Acts x b s := ⟨hslipped, hreversed, htrack, hfrozen, hactive⟩
    rw [consult_held hb hacts ho hm, edgeUpdate_eq, measuredEdge_eq]
    rfl

end Sys2Proof.EdgeTracking

/-! Requests that are refused whole: a port or claim number or a tag out of range (R189), and a request that the plan
claim or a port's claim governs, from a master that does not hold it (R156, R157). -/

namespace Sys2Proof.Refusals

open Sys2Proof.Machine Sys2Proof.BladeTable

/-! ### A refused request -/

/-- A block that refuses leaves the part as it is behind the reply with M 0 (R189). -/
theorem answered_of_refuse {m : Master} {s : State} {code : Byte} {params : List Byte} {act : State → Answer}
    {status : Status} (h : s.listens m) (ha : act (consumeRepeats m s) = refuse status (consumeRepeats m s)) :
    Host.Outcome.next (request m code params act s)
      = (.next (s.answered m code params status []) : Result) :=
  congrArg Host.Outcome.next (request_unchanged h ha)

/-! ### Numbers and tags out of range (R148, R189, R58, R60) -/

section Range
variable {m : Master} {k : Byte} {s : State}

theorem claimRequest_range (act : Master → Claim → ClaimStep) (h : 5 ≤ k.toNat) :
    claimRequest act m k s = refuse .range s := by
  simp [claimRequest, readClaim_none h]

theorem onPort_range (act : PortId → State → Answer) (h : 4 ≤ k.toNat) : onPort m k act s = refuse .range s := by
  simp [onPort, readPort_none h]

/-- A number out of range is refused with M 0 for a read of the configuration as for a write. -/
theorem setPortConfig_range (w : Option PortParams) (h : 4 ≤ k.toNat) :
    setPortConfig m k w s = refuse .range s := by
  simp [setPortConfig, readPort_none h]

theorem namedPass_range (h : 64 ≤ k.toNat) : namedPass k s = .error .range := by
  simp [namedPass, readTag_none h]

theorem abortPass_range (h : 64 ≤ k.toNat) : abortPass m k s = refuse .range s := by
  simp [abortPass, namedPass_range h]

theorem queryPass_range (h : 64 ≤ k.toNat) : queryPass k s = refuse .range s := by
  simp [queryPass, namedPass_range h]

end Range

/-- Settles O18: each block reads the number or tag before its other checks. -/
theorem numbersOutOfRangeAreRefused : Obligations.NumbersOutOfRangeAreRefused := by
  intro m k s hl
  refine ⟨fun hk => ?claims, fun hk => ?ports, fun hk => ?tags⟩
  case claims =>
    have refused {code : Byte} (act : Master → Claim → ClaimStep) :=
      answered_of_refuse (code := code) (params := [k]) hl (claimRequest_range (m := m) act hk)
    exact ⟨refused claimStep, refused releaseStep, refused takeStep, refused declineStep⟩
  case ports =>
    have refused {code : Byte} {params : List Byte} (act : PortId → State → Answer) :=
      answered_of_refuse (code := code) (params := params) hl (onPort_range (m := m) act hk)
    exact ⟨refused turnOn, fun f => refused (turnOff f), refused resume,
      fun w => answered_of_refuse hl (setPortConfig_range w hk), refused readCounters,
      fun x => refused (startTest m x), refused stopTestAt, refused insertAt⟩
  case tags =>
    exact ⟨answered_of_refuse hl (abortPass_range hk), answered_of_refuse hl (queryPass_range hk)⟩

/-! ### Requests under a claim (R156, R157) -/

/-- SET_ANGLE_CONFIG that moves the part from `s` to `t` answers with the parameters in force in `t` (R20). -/
theorem exec_setAngleConfig {m : Master} {w : Option AngleParams} {s t : State} {status : Status} (h : s.listens m)
    (ha : setAngleConfig m w (consumeRepeats m s) = answerAngle status (consumeRepeats m t)) :
    exec (.setAngleConfig m w) s = .next (t.answered m 0x15 (angleParams w) status t.angle.cfg.bytes) :=
  congrArg Host.Outcome.next (request_answered h ha)

section NotHolder
variable {m : Master} {p : PortId} {s : State}

theorem scanReset_notHolder (h : s.holdsPlan m = false) : scanReset m s = refuse .notHolder s := by
  simp [scanReset, h]

theorem onPort_notHolder (act : PortId → State → Answer) (h : s.controller p ≠ some m) :
    onPort m (byteOf p.val) act s = refuse .notHolder s := by
  simp [onPort, h]

/-- A refused write of SET_PORT_CONFIG carries the configuration in force (R105). -/
theorem setPortConfig_notHolder (c : PortParams) (h : s.controller p ≠ some m) :
    setPortConfig m (byteOf p.val) (some c) s = answerConfig .notHolder p s := by
  simp [setPortConfig, h]

end NotHolder

/-- Settles O19: the claim is the first check of each block of R156, and the first after the port number of each block
of R157. -/
theorem controlledRequestsNeedTheirClaim : Obligations.ControlledRequestsNeedTheirClaim := by
  intro m s hl refused n
  refine ⟨fun hplan => ?plan, fun p hport => ?port⟩
  case plan =>
    have hc : (consumeRepeats m s).holdsPlan m = false := hplan
    have hnot : (!(consumeRepeats m s).holdsPlan m) = true := by rw [hc, Bool.not_false]
    exact ⟨fun im => exec_putBlade hl (if_pos hnot), fun b => exec_dropBlade hl (if_pos hnot),
      exec_openPlan hl (if_pos hnot), exec_activatePlan hl (if_pos hnot),
      fun a => exec_setAngleConfig hl (if_pos hnot),
      fun a => exec_setAdapt hl ((if_pos hnot).trans (answerAdapt_eq .notHolder _)),
      fun k b => exec_resetCorrection hl (if_pos hnot), fun v => exec_setPermitConfig hl (if_pos hnot),
      answered_of_refuse hl (scanReset_notHolder hc)⟩
  case port =>
    have hc : (consumeRepeats m s).controller p ≠ some m := hport
    have refusedAt {code : Byte} {params : List Byte} (act : PortId → State → Answer) :=
      answered_of_refuse (code := code) (params := params) hl (onPort_notHolder act hc)
    exact ⟨refusedAt turnOn, fun f => refusedAt (turnOff f), refusedAt resume,
      fun c => congrArg Host.Outcome.next (request_unchanged hl (setPortConfig_notHolder c hc)),
      refusedAt readCounters, fun x => refusedAt (startTest m x), refusedAt stopTestAt, refusedAt insertAt⟩

end Sys2Proof.Refusals

/-! The Claim Unit: CLAIM, TAKE, RELEASE and DECLINE by the state of the named claim, and the expiry of a handover
(chapter 9). -/

namespace Sys2Proof.ClaimUnit

open Sys2Proof.Machine

/-! ### The bytes of a claim (R148) -/

theorem bytes_free : Claim.free.bytes = [0, 0xFF, 0xFF, 0, 0] := rfl

theorem bytes_held (h : Master) : (Claim.held h).bytes = [1, byteOf h.val, 0xFF, 0, 0] := by
  simp [Claim.bytes, Claim.code, Claim.holder?, Claim.claimant?, Claim.millis, masterByte, byteOf, leBytes]

theorem bytes_handover (h n : Master) (left : Nat) :
    (Claim.handover h n left).bytes = [2, byteOf h.val, byteOf n.val] ++ leBytes 2 (millisLeft left) := rfl

/-- Whole milliseconds are answered as they are: the free rounding bears on a part of one only (log 6). -/
theorem millisLeft_whole (ms : Nat) : millisLeft (ms * Config.periodsPerMilli) = ms := by
  simp [millisLeft, Config.periodsPerMilli]

/-- A handover starts with 2,000 ms, and its reply says so (R150). -/
theorem bytes_handover_started (h n : Master) :
    (Claim.handover h n (Config.handoverTime * Config.periodsPerMilli)).bytes
      = [2, byteOf h.val, byteOf n.val, 0xD0, 0x07] := by
  rw [bytes_handover, millisLeft_whole]
  rfl

/-! ### What a request makes of the named claim (R149 to R152) -/

section Steps
variable (m : Master)

theorem claimStep_free : claimStep m .free = ⟨.ok, .held m, none⟩ := rfl

theorem claimStep_held_self : claimStep m (.held m) = ⟨.ok, .held m, none⟩ := by simp [claimStep]

theorem claimStep_held_other {h : Master} (hne : h ≠ m) :
    claimStep m (.held h) = ⟨.heldByOther, .held h, none⟩ := by simp [claimStep, hne]

theorem claimStep_handover (h n : Master) (left : Nat) :
    claimStep m (.handover h n left) = ⟨.busy, .handover h n left, none⟩ := rfl

theorem takeStep_free : takeStep m .free = ⟨.ok, .held m, none⟩ := rfl

theorem takeStep_held_self : takeStep m (.held m) = ⟨.ok, .held m, none⟩ := by simp [takeStep]

theorem takeStep_held_other {h : Master} (hne : h ≠ m) :
    takeStep m (.held h)
      = ⟨.ok, .handover h m (Config.handoverTime * Config.periodsPerMilli), some h⟩ := by simp [takeStep, hne]

theorem takeStep_handover (h n : Master) (left : Nat) :
    takeStep m (.handover h n left) = ⟨.busy, .handover h n left, none⟩ := rfl

theorem releaseStep_held : releaseStep m (.held m) = ⟨.ok, .free, none⟩ := by simp [releaseStep]

theorem releaseStep_handover (n : Master) (left : Nat) :
    releaseStep m (.handover m n left) = ⟨.ok, .held n, some n⟩ := by simp [releaseStep]

theorem releaseStep_notHolder {c : Claim} (h : c.holder? ≠ some m) : releaseStep m c = ⟨.notHolder, c, none⟩ := by
  cases c with
  | free => rfl
  | held k => simpa [releaseStep, Claim.holder?] using h
  | handover k n left => simpa [releaseStep, Claim.holder?] using h

theorem declineStep_held : declineStep m (.held m) = ⟨.wrongState, .held m, none⟩ := by simp [declineStep]

theorem declineStep_handover (n : Master) (left : Nat) :
    declineStep m (.handover m n left) = ⟨.ok, .held m, some n⟩ := by simp [declineStep]

theorem declineStep_notHolder {c : Claim} (h : c.holder? ≠ some m) : declineStep m c = ⟨.notHolder, c, none⟩ := by
  cases c with
  | free => rfl
  | held k => simpa [declineStep, Claim.holder?] using h
  | handover k n left => simpa [declineStep, Claim.holder?] using h

end Steps

/-! ### A claim request and its reply (R148) -/

section Requests
variable {act : Master → Claim → ClaimStep} {m : Master} {c : ClaimId} {s : State} {code : Byte} {status : Status}
  {old new : Claim} {data : List Byte}

/-- A request that changes the named claim and raises nothing. -/
theorem answered_of_changed (hl : s.listens m) (ho : s.claim c = old) (hs : act m old = ⟨status, new, none⟩)
    (hb : new.bytes = data) :
    Host.Outcome.next (request m code [byteOf c.val] (claimRequest act m (byteOf c.val)) s)
      = (.next ((s.setClaim c new).answered m code [byteOf c.val] status data) : Result) := by
  refine congrArg Host.Outcome.next (request_answered hl ?_)
  simp [claimRequest, ho, hs, hb, consume_setClaim]

/-- A request that leaves the named claim as it stands. -/
theorem answered_of_kept (hl : s.listens m) (ho : s.claim c = old) (hs : act m old = ⟨status, old, none⟩)
    (hb : old.bytes = data) :
    Host.Outcome.next (request m code [byteOf c.val] (claimRequest act m (byteOf c.val)) s)
      = (.next (s.answered m code [byteOf c.val] status data) : Result) := by
  have hkept : s.setClaim c old = s := by rw [← ho, State.setClaim_claim]
  rw [answered_of_changed hl ho hs hb, hkept]

/-- A request that changes the named claim and raises CLAIM on a master. -/
theorem answered_of_noticed {k : Master} (hl : s.listens m) (ho : s.claim c = old)
    (hs : act m old = ⟨status, new, some k⟩) (hb : new.bytes = data) :
    Host.Outcome.next (request m code [byteOf c.val] (claimRequest act m (byteOf c.val)) s)
      = (.next ((raise .claim k (s.setClaim c new)).answered m code [byteOf c.val] status data) : Result) := by
  refine congrArg Host.Outcome.next (request_answered hl ?_)
  simp [claimRequest, ho, hs, hb, consume_setClaim, consume_raise]

end Requests

/-! ### CLAIM and TAKE -/

/-- Settles O20, state by state of the named claim. -/
theorem claimAndTakeByState : Obligations.ClaimAndTakeByState := by
  refine ⟨fun m c s hl => ⟨?claimFree, ?claimOwn, ?claimOther, ?claimHandover⟩,
    fun m c s hl => ⟨?takeFree, ?takeOwn, ?takeOther, ?takeHandover⟩⟩
  case claimFree => exact fun hc => answered_of_changed hl hc (claimStep_free m) (bytes_held m)
  case claimOwn => exact fun hc => answered_of_kept hl hc (claimStep_held_self m) (bytes_held m)
  case claimOther => exact fun h hne hc => answered_of_kept hl hc (claimStep_held_other m hne) (bytes_held h)
  case claimHandover =>
    exact fun h n left hc => answered_of_kept hl hc (claimStep_handover m h n left) (bytes_handover h n left)
  case takeFree => exact fun hc => answered_of_changed hl hc (takeStep_free m) (bytes_held m)
  case takeOwn => exact fun hc => answered_of_kept hl hc (takeStep_held_self m) (bytes_held m)
  case takeOther =>
    exact fun h hne hc => answered_of_noticed hl hc (takeStep_held_other m hne) (bytes_handover_started h m)
  case takeHandover =>
    exact fun h n left hc => answered_of_kept hl hc (takeStep_handover m h n left) (bytes_handover h n left)

/-! ### The expiry of a handover (R153) -/

section Expiry
variable {c : ClaimId} {s : State}

theorem exec_handoverExpiry_out {m n : Master} (h : s.claim c = .handover m n 0) :
    exec (.handoverExpiry c) s = .next (raise .claim n (raise .claim m (s.setClaim c (.held n)))) := by
  simp [exec, execHandoverExpiry, h]

/-- Without a handover timer that has run out the expiry does not happen (log 4). -/
theorem exec_handoverExpiry_early (h : ∀ m n, s.claim c ≠ .handover m n 0) :
    exec (.handoverExpiry c) s = .next s := by
  simp only [exec, execHandoverExpiry]
  split
  · next m n hc => exact absurd hc (h m n)
  all_goals rfl

end Expiry

/-! ### RELEASE, DECLINE and the expiry -/

/-- Settles O21: the holder's requests by the state of the claim, any other master's refused, and the expiry. -/
theorem handoverEndsByItsHolder : Obligations.HandoverEndsByItsHolder := by
  refine ⟨fun m c s hl => ⟨?releaseHeld, ?releaseHandover, ?releaseOther⟩,
    fun m c s hl => ⟨?declineHandover, ?declineHeld, ?declineOther⟩,
    fun c m n s hc => exec_handoverExpiry_out hc, fun c s hc => exec_handoverExpiry_early hc⟩
  case releaseHeld => exact fun hc => answered_of_changed hl hc (releaseStep_held m) bytes_free
  case releaseHandover =>
    exact fun n left hc => answered_of_noticed hl hc (releaseStep_handover m n left) (bytes_held n)
  case releaseOther => exact fun hc => answered_of_kept hl rfl (releaseStep_notHolder m hc) rfl
  case declineHandover =>
    exact fun n left hc => answered_of_noticed hl hc (declineStep_handover m n left) (bytes_held m)
  case declineHeld => exact fun hc => answered_of_kept hl hc (declineStep_held m) (bytes_held m)
  case declineOther => exact fun hc => answered_of_kept hl rfl (declineStep_notHolder m hc) rfl

end Sys2Proof.ClaimUnit

/-! The port test modes: STOP_TEST and INSERT_ERROR, the interval timer of a SHOT test, and the course of a SWEEP test
(10.2 to 10.5). -/

namespace Sys2Proof.TestModes

open Sys2Proof.Machine Sys2Proof.LineEvents Sys2Proof.TriggerLines

/-! ### The end of a test (R166) -/

section TestEnd
variable {p : PortId} {s : State}

/-- The test of port `p` of `s` has ended in `t`: the port is READY, a pending shot is dropped with its ABORTED record
written, the exchange in flight goes on, and TEST_END stands on the controller (R166). -/
structure TestEnded (p : PortId) (s t : State) : Prop where
  test : (t.port p).test = none
  state : (t.port p).state = .ready
  slot : (t.port p).slot = none
  exchange : (t.port p).exchange = (s.port p).exchange
  notice : ∀ m, s.controller p = some m → (t.link m).flags.getLsbD 6 = true
  record : ∀ sh, (s.port p).slot = some sh → sh.orphan = false →
    (t.link sh.owner).records = (s.link sh.owner).records ++ [.shot (shotRecord p sh .aborted [])]

theorem port_deliver_work (sh : Shot) (e : Ending) (d : List Byte) :
    ((deliver p sh e d s).port p).slot = (s.port p).slot
      ∧ ((deliver p sh e d s).port p).exchange = (s.port p).exchange := by
  unfold deliver
  split
  · exact ⟨rfl, rfl⟩
  · cases sh.kind <;> simp [modPass]

theorem records_deliver {sh : Shot} (ho : sh.orphan = false) (e : Ending) (d : List Byte) :
    ((deliver p sh e d s).link sh.owner).records = (s.link sh.owner).records ++ [.shot (shotRecord p sh e d)] := by
  have hwritten := (link_writeRecord_self sh.owner (.shot (shotRecord p sh e d)) s).1
  unfold deliver
  cases sh.kind <;> simp [ho, modPass, hwritten]

theorem dropSlot_empty (h : (s.port p).slot = none) : dropSlot p s = s := by simp [dropSlot, h]

theorem dropSlot_pending {sh : Shot} (h : (s.port p).slot = some sh) :
    dropSlot p s = deliver p sh .aborted [] (s.modPort p fun q => { q with slot := none }) := by simp [dropSlot, h]

theorem port_dropSlot_work :
    ((dropSlot p s).port p).slot = none ∧ ((dropSlot p s).port p).exchange = (s.port p).exchange := by
  cases h : (s.port p).slot with
  | none => rw [dropSlot_empty h]; exact ⟨h, rfl⟩
  | some sh =>
    rw [dropSlot_pending h]
    have hwork := port_deliver_work (p := p) (s := s.modPort p fun q => { q with slot := none }) sh .aborted []
    simpa using hwork

theorem records_raiseController (n : Notice) (k : Master) :
    ((raiseController n p s).link k).records = (s.link k).records := by
  rcases raiseController_cases n p s with ⟨_, h⟩ | ⟨m, _, h⟩
  · rw [h]
  · rw [h, link_raise]
    split
    · next hk => rw [hk]; rfl
    · rfl

theorem raiseController_held (n : Notice) {m : Master} (h : s.controller p = some m) :
    raiseController n p s = raise n m s := by simp [raiseController, h]

theorem testEnd_raised (l : Link) : (l.raise .testEnd).flags.getLsbD 6 = true := by
  simp [Link.raise, Link.redrive, Notice.mask]

theorem testEnded_endTest (p : PortId) (s : State) : TestEnded p s (endTest p .ready s) := by
  obtain ⟨hslot, hexchange⟩ := port_dropSlot_work (p := p) (s := s)
  refine ⟨?test, ?state, ?slot, ?exchange, fun m hm => ?notice, fun sh hsh ho => ?record⟩
  case test => simp [endTest]
  case state => simp [endTest]
  case slot => simpa [endTest] using hslot
  case exchange => simpa [endTest] using hexchange
  case notice =>
    have hkept : (dropSlot p s).controller p = some m := by
      rw [State.controller, State.claim, (AtPort.dropSlot p s).claims]
      exact hm
    have hraised : endTest p .ready s = raise .testEnd m ((dropSlot p s).modPort p _) := raiseController_held _ hkept
    rw [hraised, link_raise, if_pos rfl]
    exact testEnd_raised _
  case record => simp [endTest, records_raiseController, dropSlot_pending hsh, records_deliver ho]

/-- With no shot pending the end is the port's return to READY and the notice. -/
theorem endTest_noPending {m : Master} (hc : s.controller p = some m) (h : (s.port p).slot = none) (a : PortState) :
    endTest p a s = raise .testEnd m (s.modPort p fun q => { q with test := none, state := a }) := by
  rw [endTest, dropSlot_empty h]
  exact raiseController_held _ hc

end TestEnd

/-! ### A request consumed before the end of a test (R47) -/

section Through
variable (m : Master) (p : PortId) (s : State)

theorem consume_deliver (sh : Shot) (e : Ending) (d : List Byte) :
    deliver p sh e d (consumeRepeats m s) = consumeRepeats m (deliver p sh e d s) := by
  have hwrite := consume_modLink m sh.owner s (·.written (.shot (shotRecord p sh e d)) 1) fun _ => rfl
  unfold deliver
  split
  · rfl
  · simp only [writeRecord_shot, hwrite]
    cases sh.kind <;> rfl

theorem consume_raiseController (n : Notice) :
    raiseController n p (consumeRepeats m s) = consumeRepeats m (raiseController n p s) := by
  unfold raiseController
  simp only [controller_consume]
  cases s.controller p with
  | none => rfl
  | some k => exact consume_raise m k s n

theorem consume_endTest (a : PortState) : endTest p a (consumeRepeats m s) = consumeRepeats m (endTest p a s) := by
  have hdrop : dropSlot p (consumeRepeats m s) = consumeRepeats m (dropSlot p s) := by
    cases h : (s.port p).slot with
    | none => rw [dropSlot_empty h, dropSlot_empty (s := consumeRepeats m s) h]
    | some sh =>
      rw [dropSlot_pending h, dropSlot_pending (s := consumeRepeats m s) h]
      exact consume_deliver m p (s.modPort p fun q => { q with slot := none }) sh .aborted []
  simp only [endTest, hdrop, consume_modPort, consume_raiseController]

end Through

/-! ### STOP_TEST (R161, R166, R172) -/

section Requests
variable {m : Master} {p : PortId} {s : State} {y : Test} {pt : Pattern}

theorem onPort_controller (act : PortId → State → Answer) (h : s.controller p = some m) :
    onPort m (byteOf p.val) act s = act p s := by simp [onPort, h]

/-- A request to a port from its controller, which moves the part from `s` to `t`. -/
theorem answered_of_act {t : State} {code : Byte} {act : PortId → State → Answer} {status : Status}
    {data : List Byte} (hl : s.listens m) (hc : s.controller p = some m)
    (ha : act p (consumeRepeats m s) = ⟨status, data, consumeRepeats m t⟩) :
    Host.Outcome.next (request m code [byteOf p.val] (onPort m (byteOf p.val) act) s)
      = (.next (t.answered m code [byteOf p.val] status data) : Result) :=
  congrArg Host.Outcome.next (request_answered hl ((onPort_controller (s := consumeRepeats m s) act hc).trans ha))

theorem stopTest_ends (hy : (s.port p).test = some y) (h : ∀ pt, y.mode = .pattern pt → pt.loop = .internal) :
    stopTest p s = endTest p .ready s := by
  cases hm : y.mode with
  | shot len interval timer => simp [stopTest, hy, hm]
  | sweep len step revs ph => simp [stopTest, hy, hm]
  | pattern pt => simp [stopTest, hy, hm, h pt hm]

theorem stopTest_echo (hy : (s.port p).test = some y) (hm : y.mode = .pattern pt) (he : pt.loop = .echo) :
    stopTest p s = s.modPort p fun q => { q with test := some { y with mode := .pattern pt.stopped } } := by
  simp [stopTest, hy, hm, he]

theorem stopTestAt_refused (h : (s.port p).state ≠ .test) : stopTestAt p s = refuse .wrongState s := if_neg h

theorem stopTestAt_ends (hst : (s.port p).state = .test) (hy : (s.port p).test = some y)
    (h : ∀ pt, y.mode = .pattern pt → pt.loop = .internal) :
    stopTestAt p s = ⟨.ok, [2], endTest p .ready s⟩ := by
  rw [stopTestAt, if_pos hst, stopTest_ends hy h, answerPort, (testEnded_endTest p s).state]
  rfl

theorem stopTestAt_echo (hst : (s.port p).state = .test) (hy : (s.port p).test = some y)
    (hm : y.mode = .pattern pt) (he : pt.loop = .echo) :
    stopTestAt p s
      = ⟨.ok, [3], s.modPort p fun q => { q with test := some { y with mode := .pattern pt.stopped } }⟩ := by
  rw [stopTestAt, if_pos hst, stopTest_echo hy hm he, answerPort, State.port_modPort_self, hst]
  rfl

/-- STOP_TEST of a test that ends at once answers READY (R161, R166). -/
theorem exec_stopTest_ends (hl : s.listens m) (hc : s.controller p = some m) (hst : (s.port p).state = .test)
    (hy : (s.port p).test = some y) (h : ∀ pt, y.mode = .pattern pt → pt.loop = .internal) :
    exec (.stopTest m (byteOf p.val)) s
      = .next ((endTest p .ready s).answered m 0x36 [byteOf p.val] .ok [2]) :=
  answered_of_act (act := stopTestAt) hl hc (by
    rw [stopTestAt_ends (s := consumeRepeats m s) hst hy h, consume_endTest])

/-- A reply leaves a link's records and flags. -/
theorem link_answered_keeps (s : State) (m k : Master) (code : Byte) (params : List Byte) (status : Status)
    (data : List Byte) :
    ((s.answered m code params status data).link k).records = (s.link k).records
      ∧ ((s.answered m code params status data).link k).flags = (s.link k).flags := by
  rw [State.answered, State.link_modLink]
  split
  · next hk => rw [hk]; exact ⟨rfl, rfl⟩
  · exact ⟨rfl, rfl⟩

/-! ### INSERT_ERROR (R171) -/

theorem insertAt_notInTest (h : (s.port p).state ≠ .test) : insertAt p s = refuse .wrongState s := by
  unfold insertAt
  split
  · next hst _ => exact absurd hst h
  · rfl

theorem insertAt_fires (hst : (s.port p).state = .test) (hy : (s.port p).test = some y)
    (hf : y.mode.fires = true) : insertAt p s = refuse .wrongState s := by
  cases hm : y.mode with
  | shot len interval timer => simp [insertAt, hst, hy, hm]
  | sweep len step revs ph => simp [insertAt, hst, hy, hm]
  | pattern pt => simp [hm, TestMode.fires] at hf

theorem insertAt_pattern (hst : (s.port p).state = .test) (hy : (s.port p).test = some y)
    (hm : y.mode = .pattern pt) :
    insertAt p s
      = if pt.stopping then refuse .wrongState s
        else if pt.insert then refuse .busy s
        else ⟨.ok, [],
          s.modPort p fun q => { q with test := some { y with mode := .pattern { pt with insert := true } } }⟩ := by
  simp [insertAt, hst, hy, hm]

end Requests

/-- Settles O51, by the mode of the running test. That a stop of the ECHO loop drops the bits that wait for the checker
is the model's choice (log 14). -/
theorem stopTestAndInsertError : Obligations.StopTestAndInsertError := by
  intro m p s hl hc port stops inserts
  have stopped {t : State} {status : Status} {data : List Byte} :=
    answered_of_act (t := t) (code := 0x36) (act := stopTestAt) (status := status) (data := data) hl hc
  have inserted {t : State} {status : Status} :=
    answered_of_act (t := t) (code := 0x37) (act := insertAt) (status := status) (data := []) hl hc
  refine ⟨fun hst => ⟨stopped (stopTestAt_refused hst), inserted (insertAt_notInTest hst)⟩, ?_⟩
  intro y hst hy with'
  refine ⟨fun hf => inserted (insertAt_fires hst hy hf), fun hmode => ?ends, fun pt hm => ?pattern⟩
  case ends =>
    have hexec := exec_stopTest_ends hl hc hst hy hmode
    refine ⟨fun hslot => ?_, fun sh hsh ho => ?_⟩
    · rw [endTest_noPending hc hslot] at hexec
      exact hexec
    · have hended := testEnded_endTest p s
      have hkept (k : Master) := link_answered_keeps (endTest p .ready s) m k 0x36 [port] .ok [2]
      refine ⟨_, hexec, hended.slot, hended.test, hended.state, hended.exchange, ?_, ?_, ?_⟩
      · exact (hkept sh.owner).1.trans (hended.record sh hsh ho)
      · exact (congrArg (·.getLsbD 6) (hkept m).2).trans (hended.notice m hc)
      · rw [link_answered]
        rfl
  case pattern =>
    have hinsert := insertAt_pattern (s := consumeRepeats m s) hst hy hm
    refine ⟨fun he => stopped (stopTestAt_echo (s := consumeRepeats m s) hst hy hm he), fun hs => ?_,
      fun hs hi => ?_, fun hs hi => ?_⟩
    · exact inserted (hinsert.trans (if_pos hs))
    · exact inserted (by rw [hinsert, hs, hi]; rfl)
    · exact inserted (by rw [hinsert, hs, hi]; rfl)

/-! ### A test shot is due (R81, R98 to R102, R164) -/

section TestShot
variable {p : PortId} {s : State} {y : Test}

theorem fits_one_iff (l : Link) : l.fits 1 = true ↔ l.records.length + l.reserved < 128 :=
  decide_eq_true_iff.trans Nat.succ_le_iff

theorem saturate_eq_min (top x : Nat) : saturate top x = min top (x + 1) := by
  unfold saturate
  split <;> omega

/-- A test shot up to its hand-off: its entry is reserved, the line driven and the counter raised (R81, R98, R164). -/
def testFired (p : PortId) (y : Test) (s : State) : State :=
  (s.modLink y.recipient fun l => { l with reserved := l.reserved + 1 }).modPort p fun q =>
    { q with
      trigger := true, pulse := .running (q.cfg.trigWidth * 40)
      test := q.test.map fun z => { z with counter := z.counter + 1 } }

theorem dueTestShot_skipped (hy : (s.port p).test = some y)
    (h : 128 ≤ (s.link y.recipient).records.length + (s.link y.recipient).reserved) :
    dueTestShot p s = s.modPort p fun q => { q with testSkips := min 255 (q.testSkips + 1) } := by
  have hfull : (s.link y.recipient).fits 1 = false := by
    rw [← Bool.not_eq_true, fits_one_iff]
    omega
  simp [dueTestShot, hy, hfull, saturate_eq_min]

theorem dueTestShot_fires (hy : (s.port p).test = some y)
    (h : (s.link y.recipient).records.length + (s.link y.recipient).reserved < 128)
    (hp : s.permit.permit = .permitted) :
    dueTestShot p s = handOff p (testShot s p y y.mode.len) (testFired p y s) := by
  have hdriven : modTest p (fun t => { t with counter := t.counter + 1 })
      ((reserve y.recipient 1 s).modPort p Port.drive) = testFired p y s := by
    simp [modTest, reserve, testFired, Port.drive, startMicros, Config.periodsPerMicro]
  simp only [dueTestShot, hy, (fits_one_iff _).mpr h, hp, hdriven, ↓reduceIte]

/-- The exchange of a shot that begins at the settings of port `q` (R106, R113). -/
def exchangeStarted (sh : Shot) (q : Port) : Exchange :=
  { shot := sh, frame := sh.frame, sendTimer := q.sendTime 4, phase := .sending, received := []
    timer := .stopped, bitTime := q.cfg.bitTime, stopBits := q.cfg.stopBits, rto := q.cfg.rto }

variable {sh : Shot}

theorem handOff_starts (h : (s.port p).exchange = none) :
    handOff p sh s = s.modPort p fun q => { q with exchange := some (exchangeStarted sh q) } := by
  simp only [handOff, h]
  rfl

theorem handOff_waits (h : (s.port p).exchange ≠ none) (hslot : (s.port p).slot = none) :
    handOff p sh s = s.modPort p fun q => { q with slot := some sh } := by
  obtain ⟨ex, hex⟩ := Option.ne_none_iff_exists'.mp h
  simp [handOff, hex, hslot]

theorem handOff_overrun (h : (s.port p).exchange ≠ none) (hslot : (s.port p).slot ≠ none) (hk : sh.kind = .test)
    (ho : sh.orphan = false) :
    handOff p sh s = s.modLink sh.owner (·.written (.shot (shotRecord p sh .overrun [])) 1) := by
  obtain ⟨ex, hex⟩ := Option.ne_none_iff_exists'.mp h
  obtain ⟨other, hother⟩ := Option.ne_none_iff_exists'.mp hslot
  simp [handOff, hex, hother, deliver, ho, hk, writeRecord_shot]

end TestShot

/-! ### INTERVAL_TIMER_EXPIRY (R162) -/

section Interval
variable {p : PortId} {s : State} {y : Test} {len interval : Nat}

theorem isDue_iff (y : Test) : y.isDue = true ↔ ∃ len interval, y.mode = .shot len interval (.running 0) := by
  cases hm : y.mode with
  | shot len interval timer => simp [Test.isDue, hm, Timer.isOut_iff]
  | sweep len step revs ph => simp [Test.isDue, hm]
  | pattern pt => simp [Test.isDue, hm]

theorem exec_intervalTimerExpiry_early
    (h : ∀ y len interval, (s.port p).test = some y → y.mode ≠ .shot len interval (.running 0)) :
    exec (.intervalTimerExpiry p) s = .next s := by
  refine if_neg fun hdue => ?_
  obtain ⟨y, hy, hd⟩ := (Option.any_eq_true _ _).mp hdue
  obtain ⟨len, interval, hm⟩ := (isDue_iff y).mp hd
  exact h y len interval hy hm

theorem exec_intervalTimerExpiry_out (hy : (s.port p).test = some y)
    (hm : y.mode = .shot len interval (.running 0)) :
    exec (.intervalTimerExpiry p) s = .next (modTest p Test.restart (dueTestShot p s)) :=
  if_pos (by rw [hy]; exact (isDue_iff y).mpr ⟨len, interval, hm⟩)

theorem restart_eq (hm : y.mode = .shot len interval (.running 0)) :
    y.restart = { y with mode := .shot len interval (.running (interval * 40000)) } := by
  simp [Test.restart, hm, startMillis, Config.periodsPerMilli]

end Interval

/-- Settles O52: the expiry is the due test shot behind which the timer restarts. -/
theorem intervalExpiryFiresATestShot : Obligations.IntervalExpiryFiresATestShot := by
  refine ⟨fun p s h => exec_intervalTimerExpiry_early h, ?_⟩
  intro p y len interval s hy hm used again
  refine ⟨fun hfull => ?skips, fun hfree hp hex => ?fires⟩
  case skips =>
    rw [exec_intervalTimerExpiry_out hy hm, dueTestShot_skipped hy hfull, modTest, State.modPort_modPort]
    refine congrArg Host.Outcome.next (modPort_congr ?_)
    simp only [hy, Option.map_some, restart_eq hm, again]
  case fires =>
    intro sh
    have hshot : testShot s p y y.mode.len = sh := by simp only [testShot, hm]; rfl
    have hcount : Test.restart { y with counter := y.counter + 1 }
        = { y with counter := y.counter + 1, mode := again } :=
      restart_eq hm
    have hfree' : ((testFired p y s).port p).exchange = none := by simpa [testFired] using hex
    rw [exec_intervalTimerExpiry_out hy hm, dueTestShot_fires hy hfree hp, hshot, handOff_starts hfree', testFired,
      modTest, State.modPort_modPort, State.modPort_modPort]
    refine congrArg Host.Outcome.next (modPort_congr ?_)
    simp only [State.port_modLink, hy, Option.map_some, hcount]
    rfl

/-! ### The course of a SWEEP test (R163 to R165) -/

section Sweep
variable {d dir : Direction} {p : PortId} {s : State} {y : Test} {len step revs remaining : Nat} {next : Option Nat}

/-- The SWEEP test of a port takes a phase. -/
def sweepIn (p : PortId) (len step revs : Nat) (ph : SweepPhase) (s : State) : State :=
  s.modPort p fun q => { q with test := q.test.map fun z => { z with mode := .sweep len step revs ph } }

/-- The phase of a test in SWEEP is all that is replaced. -/
theorem modTest_withPhase {z : Test} {old : SweepPhase} (hz : (s.port p).test = some z)
    (hm : z.mode = .sweep len step revs old) (ph : SweepPhase) :
    modTest p (Test.withPhase ph) s = sweepIn p len step revs ph s :=
  modPort_congr (by simp [hz, Test.withPhase, hm])

section Waiting
variable (hy : (s.port p).test = some y) (hm : y.mode = .sweep len step revs .waiting)
include hy hm

theorem originAtSweep_begins :
    originAtSweep d p s
      = sweepIn p len step revs (.running d (sweepFrom d step s.angle.cfg.cpr s.angle.value) revs) s := by
  simp [originAtSweep, hy, hm, modTest_withPhase hy hm]

theorem sweep_waits : countAtSweep d p s = s ∧ jumpAtSweep p s = s ∧ reverseAtSweep p s = s := by
  simp [countAtSweep, jumpAtSweep, reverseAtSweep, hy, hm]

end Waiting

section Running
variable (hy : (s.port p).test = some y) (hm : y.mode = .sweep len step revs (.running dir next remaining))
include hy hm

theorem originAtSweep_advances (h : 2 ≤ remaining) :
    originAtSweep d p s
      = sweepIn p len step revs
          (.running dir (sweepFrom dir step s.angle.cfg.cpr s.angle.value) (remaining - 1)) s := by
  have hleft : ¬ remaining ≤ 1 := by omega
  simp [originAtSweep, hy, hm, hleft, modTest_withPhase hy hm]

theorem originAtSweep_ends (h : remaining ≤ 1) : originAtSweep d p s = endTest p .ready s := by
  simp [originAtSweep, hy, hm, h]

theorem jumpAtSweep_lands :
    jumpAtSweep p s
      = sweepIn p len step revs (.running dir (sweepAfter dir step s.angle.cfg.cpr s.angle.value) remaining) s := by
  simp [jumpAtSweep, hy, hm, modTest_withPhase hy hm]

theorem reverseAtSweep_ends : reverseAtSweep p s = endTest p .ready s := by simp [reverseAtSweep, hy, hm]

/-- A count in the other direction, or off the next position, is no concern of the sweep (R164). -/
theorem countAtSweep_off (h : dir ≠ d ∨ next ≠ some s.angle.value) : countAtSweep d p s = s := by
  cases next with
  | none => simp [countAtSweep, hy, hm]
  | some x =>
    have hoff : ¬ (dir = d ∧ s.angle.value = x) := by
      rintro ⟨hd, hx⟩
      exact h.elim (· hd) (· (congrArg some hx.symm))
    simp only [countAtSweep, hy, hm, if_neg hoff]

theorem countAtSweep_due (hd : dir = d) (hn : next = some s.angle.value) :
    countAtSweep d p s
      = modTest p (Test.withPhase
          (.running dir (sweepAfter dir step s.angle.cfg.cpr s.angle.value) remaining)) (dueTestShot p s) := by
  subst hd hn
  simp [countAtSweep, hy, hm, (AtPort.dueTestShot p s).angle]

/-- The shot that is due has been taken, which leaves the mode to the sweep's move to its next position. -/
theorem countAtSweep_taken {u : State} {z : Test} (hd : dir = d) (hn : next = some s.angle.value)
    (hu : dueTestShot p s = u) (hz : (u.port p).test = some z) (hzm : z.mode = y.mode) :
    countAtSweep d p s
      = sweepIn p len step revs (.running dir (sweepAfter dir step s.angle.cfg.cpr s.angle.value) remaining) u := by
  rw [countAtSweep_due hy hm hd hn, hu, modTest_withPhase hz (hzm.trans hm)]

end Running

theorem test_testFired (hy : (s.port p).test = some y) :
    ((testFired p y s).port p).test = some { y with counter := y.counter + 1 } := by
  simp only [testFired, State.port_modPort_self, State.port_modLink, hy, Option.map_some]

end Sweep

/-- Settles O53, phase by phase: each event is the model's own move, and `sweepFrom` and `sweepAfter` are the first
multiples that the positions are. -/
theorem sweepRunsOverItsPositions : Obligations.SweepRunsOverItsPositions := by
  intro d p y len step revs s hy hstep hangle becomes next ends
  have ended : ends (endTest p .ready s) := by
    obtain ⟨htest, hstate, hslot, hexchange, hnotice, hrecord⟩ := testEnded_endTest p s
    exact ⟨htest, hstate, hslot, hexchange, hnotice, hrecord⟩
  refine ⟨fun hm => ?waiting, fun dir at_ remaining hm => ?running⟩
  case waiting =>
    exact ⟨⟨_, sweepFrom_first d hstep hangle, originAtSweep_begins hy hm⟩, sweep_waits hy hm⟩
  case running =>
    refine ⟨fun h => ⟨_, sweepFrom_first dir hstep hangle, originAtSweep_advances hy hm h⟩,
      fun h => (originAtSweep_ends (d := d) hy hm h).symm ▸ ended,
      ⟨_, sweepAfter_first dir hstep hangle, jumpAtSweep_lands hy hm⟩,
      (reverseAtSweep_ends hy hm).symm ▸ ended, countAtSweep_off hy hm, fun hd hn => ?due⟩
    refine ⟨_, sweepAfter_first dir hstep hangle, ?_⟩
    intro used sh fired
    have hshot : testShot s p y y.mode.len = sh := by simp only [testShot, hm]; rfl
    refine ⟨fun hfull => ?skips, fun hfree hp => ?fires⟩
    case skips =>
      exact countAtSweep_taken hy hm hd hn (dueTestShot_skipped hy hfull) (by simpa using hy) rfl
    case fires =>
      have hdue := dueTestShot_fires hy hfree hp
      rw [hshot] at hdue
      have hwork : ((testFired p y s).port p).exchange = (s.port p).exchange
          ∧ ((testFired p y s).port p).slot = (s.port p).slot := by simp [testFired]
      rw [← hwork.1, ← hwork.2]
      have taken {u : State} (hu : dueTestShot p s = u) (ht : (u.port p).test = ((testFired p y s).port p).test) :=
        countAtSweep_taken hy hm hd hn hu (ht.trans (test_testFired hy)) rfl
      exact ⟨fun hex => taken (hdue.trans (handOff_starts hex)) (by simp [fired, testFired]),
        fun hex hslot => taken (hdue.trans (handOff_waits hex hslot)) (by simp [fired, testFired]),
        fun hex hslot => taken (hdue.trans (handOff_overrun hex hslot rfl rfl)) (by simp [fired, testFired])⟩

end Sys2Proof.TestModes
